-- ==== Sys2Proof/Word.lean ====
section
/-! DEFINITION. The word types of the CPU side and their plainest arithmetic (spec/00_scope.md R13). -/

namespace Sys2Proof

/-- A byte: the only unit the bus moves (spec/20_memory.md R72). -/
abbrev Byte := BitVec 8

/-- A 16-bit CPU address (spec/00_scope.md R6). -/
abbrev Addr := BitVec 16

/-- `word(hi, lo) = hi * 256 + lo` (R13). -/
def word (hi lo : Byte) : Addr := hi ++ lo

/-- `hi8(w) = w div 256` (R13). -/
def hi8 (w : Addr) : Byte := w.extractLsb' 8 8

/-- `lo8(w) = w mod 256` (R13). -/
def lo8 (w : Addr) : Byte := w.extractLsb' 0 8

end Sys2Proof
end

