-- ==== Sys2Proof/Syntax.lean ====
section
/-! DEFINITION. The instructions as syntax: one constructor per row of spec/opcode_table.json (spec/30_encoding.md R121,
R125), with the bytes that follow the opcode as operands, and two views of an instruction: its mnemonic and its form.
A constructor's name is the mnemonic and the format; where one (mnemonic, format) pair has several opcodes (the unofficial
NOP, JAM, ANC, SBC rows) the opcode is in the name. -/

namespace Sys2Proof

/-- The table's mnemonics. `nopU` and `sbcU` are the unofficial `*NOP` and `*SBC` (0xEB), the rest as the table has them. -/
inductive Mnem where
  | brk | ora | jam | slo | nopU | asl | php | anc | bpl | clc | jsr | and
  | rla | bit | rol | plp | bmi | sec | rti | eor | sre | lsr | pha | alr
  | jmp | bvc | cli | rts | adc | rra | ror | pla | arr | bvs | sei | sta
  | sax | sty | stx | dey | txa | xaa | bcc | sha | tya | txs | tas | shy
  | shx | ldy | lda | ldx | lax | tay | tax | lxa | bcs | clv | tsx | las
  | cpy | cmp | dcp | dec | iny | dex | axs | bne | cld | cpx | sbc | isc
  | inc | inx | nop | sbcU | beq | sed
deriving DecidableEq, Repr

/-- The formats whose operand is a byte in memory (R121), with the operand bytes. -/
inductive MemOperand where
  | zp (z : Byte)
  | zpx (z : Byte)
  | zpy (z : Byte)
  | abs (l h : Byte)
  | abx (l h : Byte)
  | aby (l h : Byte)
  | izx (z : Byte)
  | izy (z : Byte)
deriving DecidableEq, Repr

/-- Where a read-class instruction finds its operand byte `M` (R131): in the instruction or in memory. -/
inductive Src where
  | imm (d : Byte)
  | mem (m : MemOperand)
deriving DecidableEq, Repr

/-- The thirteen formats (R121). -/
inductive Form where
  | imp
  | acc
  | src (x : Src)
  | rel (o : Byte)
  | ind (l h : Byte)
deriving DecidableEq, Repr

/-- An instruction: one constructor per opcode value; those with operand bytes first, then the implied and accumulator ones. -/
inductive Instr where
  | oraIzx (z : Byte)
  | sloIzx (z : Byte)
  | nopZp04 (z : Byte)
  | oraZp (z : Byte)
  | aslZp (z : Byte)
  | sloZp (z : Byte)
  | oraImm (d : Byte)
  | ancImm0B (d : Byte)
  | nopAbs0C (l h : Byte)
  | oraAbs (l h : Byte)
  | aslAbs (l h : Byte)
  | sloAbs (l h : Byte)
  | bplRel (o : Byte)
  | oraIzy (z : Byte)
  | sloIzy (z : Byte)
  | nopZpx14 (z : Byte)
  | oraZpx (z : Byte)
  | aslZpx (z : Byte)
  | sloZpx (z : Byte)
  | oraAby (l h : Byte)
  | sloAby (l h : Byte)
  | nopAbx1C (l h : Byte)
  | oraAbx (l h : Byte)
  | aslAbx (l h : Byte)
  | sloAbx (l h : Byte)
  | jsrAbs (l h : Byte)
  | andIzx (z : Byte)
  | rlaIzx (z : Byte)
  | bitZp (z : Byte)
  | andZp (z : Byte)
  | rolZp (z : Byte)
  | rlaZp (z : Byte)
  | andImm (d : Byte)
  | ancImm2B (d : Byte)
  | bitAbs (l h : Byte)
  | andAbs (l h : Byte)
  | rolAbs (l h : Byte)
  | rlaAbs (l h : Byte)
  | bmiRel (o : Byte)
  | andIzy (z : Byte)
  | rlaIzy (z : Byte)
  | nopZpx34 (z : Byte)
  | andZpx (z : Byte)
  | rolZpx (z : Byte)
  | rlaZpx (z : Byte)
  | andAby (l h : Byte)
  | rlaAby (l h : Byte)
  | nopAbx3C (l h : Byte)
  | andAbx (l h : Byte)
  | rolAbx (l h : Byte)
  | rlaAbx (l h : Byte)
  | eorIzx (z : Byte)
  | sreIzx (z : Byte)
  | nopZp44 (z : Byte)
  | eorZp (z : Byte)
  | lsrZp (z : Byte)
  | sreZp (z : Byte)
  | eorImm (d : Byte)
  | alrImm (d : Byte)
  | jmpAbs (l h : Byte)
  | eorAbs (l h : Byte)
  | lsrAbs (l h : Byte)
  | sreAbs (l h : Byte)
  | bvcRel (o : Byte)
  | eorIzy (z : Byte)
  | sreIzy (z : Byte)
  | nopZpx54 (z : Byte)
  | eorZpx (z : Byte)
  | lsrZpx (z : Byte)
  | sreZpx (z : Byte)
  | eorAby (l h : Byte)
  | sreAby (l h : Byte)
  | nopAbx5C (l h : Byte)
  | eorAbx (l h : Byte)
  | lsrAbx (l h : Byte)
  | sreAbx (l h : Byte)
  | adcIzx (z : Byte)
  | rraIzx (z : Byte)
  | nopZp64 (z : Byte)
  | adcZp (z : Byte)
  | rorZp (z : Byte)
  | rraZp (z : Byte)
  | adcImm (d : Byte)
  | arrImm (d : Byte)
  | jmpInd (l h : Byte)
  | adcAbs (l h : Byte)
  | rorAbs (l h : Byte)
  | rraAbs (l h : Byte)
  | bvsRel (o : Byte)
  | adcIzy (z : Byte)
  | rraIzy (z : Byte)
  | nopZpx74 (z : Byte)
  | adcZpx (z : Byte)
  | rorZpx (z : Byte)
  | rraZpx (z : Byte)
  | adcAby (l h : Byte)
  | rraAby (l h : Byte)
  | nopAbx7C (l h : Byte)
  | adcAbx (l h : Byte)
  | rorAbx (l h : Byte)
  | rraAbx (l h : Byte)
  | nopImm80 (d : Byte)
  | staIzx (z : Byte)
  | nopImm82 (d : Byte)
  | saxIzx (z : Byte)
  | styZp (z : Byte)
  | staZp (z : Byte)
  | stxZp (z : Byte)
  | saxZp (z : Byte)
  | nopImm89 (d : Byte)
  | xaaImm (d : Byte)
  | styAbs (l h : Byte)
  | staAbs (l h : Byte)
  | stxAbs (l h : Byte)
  | saxAbs (l h : Byte)
  | bccRel (o : Byte)
  | staIzy (z : Byte)
  | shaIzy (z : Byte)
  | styZpx (z : Byte)
  | staZpx (z : Byte)
  | stxZpy (z : Byte)
  | saxZpy (z : Byte)
  | staAby (l h : Byte)
  | tasAby (l h : Byte)
  | shyAbx (l h : Byte)
  | staAbx (l h : Byte)
  | shxAby (l h : Byte)
  | shaAby (l h : Byte)
  | ldyImm (d : Byte)
  | ldaIzx (z : Byte)
  | ldxImm (d : Byte)
  | laxIzx (z : Byte)
  | ldyZp (z : Byte)
  | ldaZp (z : Byte)
  | ldxZp (z : Byte)
  | laxZp (z : Byte)
  | ldaImm (d : Byte)
  | lxaImm (d : Byte)
  | ldyAbs (l h : Byte)
  | ldaAbs (l h : Byte)
  | ldxAbs (l h : Byte)
  | laxAbs (l h : Byte)
  | bcsRel (o : Byte)
  | ldaIzy (z : Byte)
  | laxIzy (z : Byte)
  | ldyZpx (z : Byte)
  | ldaZpx (z : Byte)
  | ldxZpy (z : Byte)
  | laxZpy (z : Byte)
  | ldaAby (l h : Byte)
  | lasAby (l h : Byte)
  | ldyAbx (l h : Byte)
  | ldaAbx (l h : Byte)
  | ldxAby (l h : Byte)
  | laxAby (l h : Byte)
  | cpyImm (d : Byte)
  | cmpIzx (z : Byte)
  | nopImmC2 (d : Byte)
  | dcpIzx (z : Byte)
  | cpyZp (z : Byte)
  | cmpZp (z : Byte)
  | decZp (z : Byte)
  | dcpZp (z : Byte)
  | cmpImm (d : Byte)
  | axsImm (d : Byte)
  | cpyAbs (l h : Byte)
  | cmpAbs (l h : Byte)
  | decAbs (l h : Byte)
  | dcpAbs (l h : Byte)
  | bneRel (o : Byte)
  | cmpIzy (z : Byte)
  | dcpIzy (z : Byte)
  | nopZpxD4 (z : Byte)
  | cmpZpx (z : Byte)
  | decZpx (z : Byte)
  | dcpZpx (z : Byte)
  | cmpAby (l h : Byte)
  | dcpAby (l h : Byte)
  | nopAbxDC (l h : Byte)
  | cmpAbx (l h : Byte)
  | decAbx (l h : Byte)
  | dcpAbx (l h : Byte)
  | cpxImm (d : Byte)
  | sbcIzx (z : Byte)
  | nopImmE2 (d : Byte)
  | iscIzx (z : Byte)
  | cpxZp (z : Byte)
  | sbcZp (z : Byte)
  | incZp (z : Byte)
  | iscZp (z : Byte)
  | sbcImm (d : Byte)
  | sbcImmEB (d : Byte)
  | cpxAbs (l h : Byte)
  | sbcAbs (l h : Byte)
  | incAbs (l h : Byte)
  | iscAbs (l h : Byte)
  | beqRel (o : Byte)
  | sbcIzy (z : Byte)
  | iscIzy (z : Byte)
  | nopZpxF4 (z : Byte)
  | sbcZpx (z : Byte)
  | incZpx (z : Byte)
  | iscZpx (z : Byte)
  | sbcAby (l h : Byte)
  | iscAby (l h : Byte)
  | nopAbxFC (l h : Byte)
  | sbcAbx (l h : Byte)
  | incAbx (l h : Byte)
  | iscAbx (l h : Byte)
  | brk
  | jam02
  | php
  | aslAcc
  | jam12
  | clc
  | nop1A
  | jam22
  | plp
  | rolAcc
  | jam32
  | sec
  | nop3A
  | rti
  | jam42
  | pha
  | lsrAcc
  | jam52
  | cli
  | nop5A
  | rts
  | jam62
  | pla
  | rorAcc
  | jam72
  | sei
  | nop7A
  | dey
  | txa
  | jam92
  | tya
  | txs
  | tay
  | tax
  | jamB2
  | clv
  | tsx
  | iny
  | dex
  | jamD2
  | cld
  | nopDA
  | inx
  | nop
  | jamF2
  | sed
  | nopFA
deriving DecidableEq, Repr

/-- The mnemonic column of R125. -/
def Instr.mnem : Instr → Mnem
  | .brk => .brk
  | .oraIzx _ => .ora
  | .jam02 => .jam
  | .sloIzx _ => .slo
  | .nopZp04 _ => .nopU
  | .oraZp _ => .ora
  | .aslZp _ => .asl
  | .sloZp _ => .slo
  | .php => .php
  | .oraImm _ => .ora
  | .aslAcc => .asl
  | .ancImm0B _ => .anc
  | .nopAbs0C _ _ => .nopU
  | .oraAbs _ _ => .ora
  | .aslAbs _ _ => .asl
  | .sloAbs _ _ => .slo
  | .bplRel _ => .bpl
  | .oraIzy _ => .ora
  | .jam12 => .jam
  | .sloIzy _ => .slo
  | .nopZpx14 _ => .nopU
  | .oraZpx _ => .ora
  | .aslZpx _ => .asl
  | .sloZpx _ => .slo
  | .clc => .clc
  | .oraAby _ _ => .ora
  | .nop1A => .nopU
  | .sloAby _ _ => .slo
  | .nopAbx1C _ _ => .nopU
  | .oraAbx _ _ => .ora
  | .aslAbx _ _ => .asl
  | .sloAbx _ _ => .slo
  | .jsrAbs _ _ => .jsr
  | .andIzx _ => .and
  | .jam22 => .jam
  | .rlaIzx _ => .rla
  | .bitZp _ => .bit
  | .andZp _ => .and
  | .rolZp _ => .rol
  | .rlaZp _ => .rla
  | .plp => .plp
  | .andImm _ => .and
  | .rolAcc => .rol
  | .ancImm2B _ => .anc
  | .bitAbs _ _ => .bit
  | .andAbs _ _ => .and
  | .rolAbs _ _ => .rol
  | .rlaAbs _ _ => .rla
  | .bmiRel _ => .bmi
  | .andIzy _ => .and
  | .jam32 => .jam
  | .rlaIzy _ => .rla
  | .nopZpx34 _ => .nopU
  | .andZpx _ => .and
  | .rolZpx _ => .rol
  | .rlaZpx _ => .rla
  | .sec => .sec
  | .andAby _ _ => .and
  | .nop3A => .nopU
  | .rlaAby _ _ => .rla
  | .nopAbx3C _ _ => .nopU
  | .andAbx _ _ => .and
  | .rolAbx _ _ => .rol
  | .rlaAbx _ _ => .rla
  | .rti => .rti
  | .eorIzx _ => .eor
  | .jam42 => .jam
  | .sreIzx _ => .sre
  | .nopZp44 _ => .nopU
  | .eorZp _ => .eor
  | .lsrZp _ => .lsr
  | .sreZp _ => .sre
  | .pha => .pha
  | .eorImm _ => .eor
  | .lsrAcc => .lsr
  | .alrImm _ => .alr
  | .jmpAbs _ _ => .jmp
  | .eorAbs _ _ => .eor
  | .lsrAbs _ _ => .lsr
  | .sreAbs _ _ => .sre
  | .bvcRel _ => .bvc
  | .eorIzy _ => .eor
  | .jam52 => .jam
  | .sreIzy _ => .sre
  | .nopZpx54 _ => .nopU
  | .eorZpx _ => .eor
  | .lsrZpx _ => .lsr
  | .sreZpx _ => .sre
  | .cli => .cli
  | .eorAby _ _ => .eor
  | .nop5A => .nopU
  | .sreAby _ _ => .sre
  | .nopAbx5C _ _ => .nopU
  | .eorAbx _ _ => .eor
  | .lsrAbx _ _ => .lsr
  | .sreAbx _ _ => .sre
  | .rts => .rts
  | .adcIzx _ => .adc
  | .jam62 => .jam
  | .rraIzx _ => .rra
  | .nopZp64 _ => .nopU
  | .adcZp _ => .adc
  | .rorZp _ => .ror
  | .rraZp _ => .rra
  | .pla => .pla
  | .adcImm _ => .adc
  | .rorAcc => .ror
  | .arrImm _ => .arr
  | .jmpInd _ _ => .jmp
  | .adcAbs _ _ => .adc
  | .rorAbs _ _ => .ror
  | .rraAbs _ _ => .rra
  | .bvsRel _ => .bvs
  | .adcIzy _ => .adc
  | .jam72 => .jam
  | .rraIzy _ => .rra
  | .nopZpx74 _ => .nopU
  | .adcZpx _ => .adc
  | .rorZpx _ => .ror
  | .rraZpx _ => .rra
  | .sei => .sei
  | .adcAby _ _ => .adc
  | .nop7A => .nopU
  | .rraAby _ _ => .rra
  | .nopAbx7C _ _ => .nopU
  | .adcAbx _ _ => .adc
  | .rorAbx _ _ => .ror
  | .rraAbx _ _ => .rra
  | .nopImm80 _ => .nopU
  | .staIzx _ => .sta
  | .nopImm82 _ => .nopU
  | .saxIzx _ => .sax
  | .styZp _ => .sty
  | .staZp _ => .sta
  | .stxZp _ => .stx
  | .saxZp _ => .sax
  | .dey => .dey
  | .nopImm89 _ => .nopU
  | .txa => .txa
  | .xaaImm _ => .xaa
  | .styAbs _ _ => .sty
  | .staAbs _ _ => .sta
  | .stxAbs _ _ => .stx
  | .saxAbs _ _ => .sax
  | .bccRel _ => .bcc
  | .staIzy _ => .sta
  | .jam92 => .jam
  | .shaIzy _ => .sha
  | .styZpx _ => .sty
  | .staZpx _ => .sta
  | .stxZpy _ => .stx
  | .saxZpy _ => .sax
  | .tya => .tya
  | .staAby _ _ => .sta
  | .txs => .txs
  | .tasAby _ _ => .tas
  | .shyAbx _ _ => .shy
  | .staAbx _ _ => .sta
  | .shxAby _ _ => .shx
  | .shaAby _ _ => .sha
  | .ldyImm _ => .ldy
  | .ldaIzx _ => .lda
  | .ldxImm _ => .ldx
  | .laxIzx _ => .lax
  | .ldyZp _ => .ldy
  | .ldaZp _ => .lda
  | .ldxZp _ => .ldx
  | .laxZp _ => .lax
  | .tay => .tay
  | .ldaImm _ => .lda
  | .tax => .tax
  | .lxaImm _ => .lxa
  | .ldyAbs _ _ => .ldy
  | .ldaAbs _ _ => .lda
  | .ldxAbs _ _ => .ldx
  | .laxAbs _ _ => .lax
  | .bcsRel _ => .bcs
  | .ldaIzy _ => .lda
  | .jamB2 => .jam
  | .laxIzy _ => .lax
  | .ldyZpx _ => .ldy
  | .ldaZpx _ => .lda
  | .ldxZpy _ => .ldx
  | .laxZpy _ => .lax
  | .clv => .clv
  | .ldaAby _ _ => .lda
  | .tsx => .tsx
  | .lasAby _ _ => .las
  | .ldyAbx _ _ => .ldy
  | .ldaAbx _ _ => .lda
  | .ldxAby _ _ => .ldx
  | .laxAby _ _ => .lax
  | .cpyImm _ => .cpy
  | .cmpIzx _ => .cmp
  | .nopImmC2 _ => .nopU
  | .dcpIzx _ => .dcp
  | .cpyZp _ => .cpy
  | .cmpZp _ => .cmp
  | .decZp _ => .dec
  | .dcpZp _ => .dcp
  | .iny => .iny
  | .cmpImm _ => .cmp
  | .dex => .dex
  | .axsImm _ => .axs
  | .cpyAbs _ _ => .cpy
  | .cmpAbs _ _ => .cmp
  | .decAbs _ _ => .dec
  | .dcpAbs _ _ => .dcp
  | .bneRel _ => .bne
  | .cmpIzy _ => .cmp
  | .jamD2 => .jam
  | .dcpIzy _ => .dcp
  | .nopZpxD4 _ => .nopU
  | .cmpZpx _ => .cmp
  | .decZpx _ => .dec
  | .dcpZpx _ => .dcp
  | .cld => .cld
  | .cmpAby _ _ => .cmp
  | .nopDA => .nopU
  | .dcpAby _ _ => .dcp
  | .nopAbxDC _ _ => .nopU
  | .cmpAbx _ _ => .cmp
  | .decAbx _ _ => .dec
  | .dcpAbx _ _ => .dcp
  | .cpxImm _ => .cpx
  | .sbcIzx _ => .sbc
  | .nopImmE2 _ => .nopU
  | .iscIzx _ => .isc
  | .cpxZp _ => .cpx
  | .sbcZp _ => .sbc
  | .incZp _ => .inc
  | .iscZp _ => .isc
  | .inx => .inx
  | .sbcImm _ => .sbc
  | .nop => .nop
  | .sbcImmEB _ => .sbcU
  | .cpxAbs _ _ => .cpx
  | .sbcAbs _ _ => .sbc
  | .incAbs _ _ => .inc
  | .iscAbs _ _ => .isc
  | .beqRel _ => .beq
  | .sbcIzy _ => .sbc
  | .jamF2 => .jam
  | .iscIzy _ => .isc
  | .nopZpxF4 _ => .nopU
  | .sbcZpx _ => .sbc
  | .incZpx _ => .inc
  | .iscZpx _ => .isc
  | .sed => .sed
  | .sbcAby _ _ => .sbc
  | .nopFA => .nopU
  | .iscAby _ _ => .isc
  | .nopAbxFC _ _ => .nopU
  | .sbcAbx _ _ => .sbc
  | .incAbx _ _ => .inc
  | .iscAbx _ _ => .isc

/-- The mode column of R125, with the operand bytes. -/
def Instr.form : Instr → Form
  | .brk => .imp
  | .oraIzx z => .src (.mem (.izx z))
  | .jam02 => .imp
  | .sloIzx z => .src (.mem (.izx z))
  | .nopZp04 z => .src (.mem (.zp z))
  | .oraZp z => .src (.mem (.zp z))
  | .aslZp z => .src (.mem (.zp z))
  | .sloZp z => .src (.mem (.zp z))
  | .php => .imp
  | .oraImm d => .src (.imm d)
  | .aslAcc => .acc
  | .ancImm0B d => .src (.imm d)
  | .nopAbs0C l h => .src (.mem (.abs l h))
  | .oraAbs l h => .src (.mem (.abs l h))
  | .aslAbs l h => .src (.mem (.abs l h))
  | .sloAbs l h => .src (.mem (.abs l h))
  | .bplRel o => .rel o
  | .oraIzy z => .src (.mem (.izy z))
  | .jam12 => .imp
  | .sloIzy z => .src (.mem (.izy z))
  | .nopZpx14 z => .src (.mem (.zpx z))
  | .oraZpx z => .src (.mem (.zpx z))
  | .aslZpx z => .src (.mem (.zpx z))
  | .sloZpx z => .src (.mem (.zpx z))
  | .clc => .imp
  | .oraAby l h => .src (.mem (.aby l h))
  | .nop1A => .imp
  | .sloAby l h => .src (.mem (.aby l h))
  | .nopAbx1C l h => .src (.mem (.abx l h))
  | .oraAbx l h => .src (.mem (.abx l h))
  | .aslAbx l h => .src (.mem (.abx l h))
  | .sloAbx l h => .src (.mem (.abx l h))
  | .jsrAbs l h => .src (.mem (.abs l h))
  | .andIzx z => .src (.mem (.izx z))
  | .jam22 => .imp
  | .rlaIzx z => .src (.mem (.izx z))
  | .bitZp z => .src (.mem (.zp z))
  | .andZp z => .src (.mem (.zp z))
  | .rolZp z => .src (.mem (.zp z))
  | .rlaZp z => .src (.mem (.zp z))
  | .plp => .imp
  | .andImm d => .src (.imm d)
  | .rolAcc => .acc
  | .ancImm2B d => .src (.imm d)
  | .bitAbs l h => .src (.mem (.abs l h))
  | .andAbs l h => .src (.mem (.abs l h))
  | .rolAbs l h => .src (.mem (.abs l h))
  | .rlaAbs l h => .src (.mem (.abs l h))
  | .bmiRel o => .rel o
  | .andIzy z => .src (.mem (.izy z))
  | .jam32 => .imp
  | .rlaIzy z => .src (.mem (.izy z))
  | .nopZpx34 z => .src (.mem (.zpx z))
  | .andZpx z => .src (.mem (.zpx z))
  | .rolZpx z => .src (.mem (.zpx z))
  | .rlaZpx z => .src (.mem (.zpx z))
  | .sec => .imp
  | .andAby l h => .src (.mem (.aby l h))
  | .nop3A => .imp
  | .rlaAby l h => .src (.mem (.aby l h))
  | .nopAbx3C l h => .src (.mem (.abx l h))
  | .andAbx l h => .src (.mem (.abx l h))
  | .rolAbx l h => .src (.mem (.abx l h))
  | .rlaAbx l h => .src (.mem (.abx l h))
  | .rti => .imp
  | .eorIzx z => .src (.mem (.izx z))
  | .jam42 => .imp
  | .sreIzx z => .src (.mem (.izx z))
  | .nopZp44 z => .src (.mem (.zp z))
  | .eorZp z => .src (.mem (.zp z))
  | .lsrZp z => .src (.mem (.zp z))
  | .sreZp z => .src (.mem (.zp z))
  | .pha => .imp
  | .eorImm d => .src (.imm d)
  | .lsrAcc => .acc
  | .alrImm d => .src (.imm d)
  | .jmpAbs l h => .src (.mem (.abs l h))
  | .eorAbs l h => .src (.mem (.abs l h))
  | .lsrAbs l h => .src (.mem (.abs l h))
  | .sreAbs l h => .src (.mem (.abs l h))
  | .bvcRel o => .rel o
  | .eorIzy z => .src (.mem (.izy z))
  | .jam52 => .imp
  | .sreIzy z => .src (.mem (.izy z))
  | .nopZpx54 z => .src (.mem (.zpx z))
  | .eorZpx z => .src (.mem (.zpx z))
  | .lsrZpx z => .src (.mem (.zpx z))
  | .sreZpx z => .src (.mem (.zpx z))
  | .cli => .imp
  | .eorAby l h => .src (.mem (.aby l h))
  | .nop5A => .imp
  | .sreAby l h => .src (.mem (.aby l h))
  | .nopAbx5C l h => .src (.mem (.abx l h))
  | .eorAbx l h => .src (.mem (.abx l h))
  | .lsrAbx l h => .src (.mem (.abx l h))
  | .sreAbx l h => .src (.mem (.abx l h))
  | .rts => .imp
  | .adcIzx z => .src (.mem (.izx z))
  | .jam62 => .imp
  | .rraIzx z => .src (.mem (.izx z))
  | .nopZp64 z => .src (.mem (.zp z))
  | .adcZp z => .src (.mem (.zp z))
  | .rorZp z => .src (.mem (.zp z))
  | .rraZp z => .src (.mem (.zp z))
  | .pla => .imp
  | .adcImm d => .src (.imm d)
  | .rorAcc => .acc
  | .arrImm d => .src (.imm d)
  | .jmpInd l h => .ind l h
  | .adcAbs l h => .src (.mem (.abs l h))
  | .rorAbs l h => .src (.mem (.abs l h))
  | .rraAbs l h => .src (.mem (.abs l h))
  | .bvsRel o => .rel o
  | .adcIzy z => .src (.mem (.izy z))
  | .jam72 => .imp
  | .rraIzy z => .src (.mem (.izy z))
  | .nopZpx74 z => .src (.mem (.zpx z))
  | .adcZpx z => .src (.mem (.zpx z))
  | .rorZpx z => .src (.mem (.zpx z))
  | .rraZpx z => .src (.mem (.zpx z))
  | .sei => .imp
  | .adcAby l h => .src (.mem (.aby l h))
  | .nop7A => .imp
  | .rraAby l h => .src (.mem (.aby l h))
  | .nopAbx7C l h => .src (.mem (.abx l h))
  | .adcAbx l h => .src (.mem (.abx l h))
  | .rorAbx l h => .src (.mem (.abx l h))
  | .rraAbx l h => .src (.mem (.abx l h))
  | .nopImm80 d => .src (.imm d)
  | .staIzx z => .src (.mem (.izx z))
  | .nopImm82 d => .src (.imm d)
  | .saxIzx z => .src (.mem (.izx z))
  | .styZp z => .src (.mem (.zp z))
  | .staZp z => .src (.mem (.zp z))
  | .stxZp z => .src (.mem (.zp z))
  | .saxZp z => .src (.mem (.zp z))
  | .dey => .imp
  | .nopImm89 d => .src (.imm d)
  | .txa => .imp
  | .xaaImm d => .src (.imm d)
  | .styAbs l h => .src (.mem (.abs l h))
  | .staAbs l h => .src (.mem (.abs l h))
  | .stxAbs l h => .src (.mem (.abs l h))
  | .saxAbs l h => .src (.mem (.abs l h))
  | .bccRel o => .rel o
  | .staIzy z => .src (.mem (.izy z))
  | .jam92 => .imp
  | .shaIzy z => .src (.mem (.izy z))
  | .styZpx z => .src (.mem (.zpx z))
  | .staZpx z => .src (.mem (.zpx z))
  | .stxZpy z => .src (.mem (.zpy z))
  | .saxZpy z => .src (.mem (.zpy z))
  | .tya => .imp
  | .staAby l h => .src (.mem (.aby l h))
  | .txs => .imp
  | .tasAby l h => .src (.mem (.aby l h))
  | .shyAbx l h => .src (.mem (.abx l h))
  | .staAbx l h => .src (.mem (.abx l h))
  | .shxAby l h => .src (.mem (.aby l h))
  | .shaAby l h => .src (.mem (.aby l h))
  | .ldyImm d => .src (.imm d)
  | .ldaIzx z => .src (.mem (.izx z))
  | .ldxImm d => .src (.imm d)
  | .laxIzx z => .src (.mem (.izx z))
  | .ldyZp z => .src (.mem (.zp z))
  | .ldaZp z => .src (.mem (.zp z))
  | .ldxZp z => .src (.mem (.zp z))
  | .laxZp z => .src (.mem (.zp z))
  | .tay => .imp
  | .ldaImm d => .src (.imm d)
  | .tax => .imp
  | .lxaImm d => .src (.imm d)
  | .ldyAbs l h => .src (.mem (.abs l h))
  | .ldaAbs l h => .src (.mem (.abs l h))
  | .ldxAbs l h => .src (.mem (.abs l h))
  | .laxAbs l h => .src (.mem (.abs l h))
  | .bcsRel o => .rel o
  | .ldaIzy z => .src (.mem (.izy z))
  | .jamB2 => .imp
  | .laxIzy z => .src (.mem (.izy z))
  | .ldyZpx z => .src (.mem (.zpx z))
  | .ldaZpx z => .src (.mem (.zpx z))
  | .ldxZpy z => .src (.mem (.zpy z))
  | .laxZpy z => .src (.mem (.zpy z))
  | .clv => .imp
  | .ldaAby l h => .src (.mem (.aby l h))
  | .tsx => .imp
  | .lasAby l h => .src (.mem (.aby l h))
  | .ldyAbx l h => .src (.mem (.abx l h))
  | .ldaAbx l h => .src (.mem (.abx l h))
  | .ldxAby l h => .src (.mem (.aby l h))
  | .laxAby l h => .src (.mem (.aby l h))
  | .cpyImm d => .src (.imm d)
  | .cmpIzx z => .src (.mem (.izx z))
  | .nopImmC2 d => .src (.imm d)
  | .dcpIzx z => .src (.mem (.izx z))
  | .cpyZp z => .src (.mem (.zp z))
  | .cmpZp z => .src (.mem (.zp z))
  | .decZp z => .src (.mem (.zp z))
  | .dcpZp z => .src (.mem (.zp z))
  | .iny => .imp
  | .cmpImm d => .src (.imm d)
  | .dex => .imp
  | .axsImm d => .src (.imm d)
  | .cpyAbs l h => .src (.mem (.abs l h))
  | .cmpAbs l h => .src (.mem (.abs l h))
  | .decAbs l h => .src (.mem (.abs l h))
  | .dcpAbs l h => .src (.mem (.abs l h))
  | .bneRel o => .rel o
  | .cmpIzy z => .src (.mem (.izy z))
  | .jamD2 => .imp
  | .dcpIzy z => .src (.mem (.izy z))
  | .nopZpxD4 z => .src (.mem (.zpx z))
  | .cmpZpx z => .src (.mem (.zpx z))
  | .decZpx z => .src (.mem (.zpx z))
  | .dcpZpx z => .src (.mem (.zpx z))
  | .cld => .imp
  | .cmpAby l h => .src (.mem (.aby l h))
  | .nopDA => .imp
  | .dcpAby l h => .src (.mem (.aby l h))
  | .nopAbxDC l h => .src (.mem (.abx l h))
  | .cmpAbx l h => .src (.mem (.abx l h))
  | .decAbx l h => .src (.mem (.abx l h))
  | .dcpAbx l h => .src (.mem (.abx l h))
  | .cpxImm d => .src (.imm d)
  | .sbcIzx z => .src (.mem (.izx z))
  | .nopImmE2 d => .src (.imm d)
  | .iscIzx z => .src (.mem (.izx z))
  | .cpxZp z => .src (.mem (.zp z))
  | .sbcZp z => .src (.mem (.zp z))
  | .incZp z => .src (.mem (.zp z))
  | .iscZp z => .src (.mem (.zp z))
  | .inx => .imp
  | .sbcImm d => .src (.imm d)
  | .nop => .imp
  | .sbcImmEB d => .src (.imm d)
  | .cpxAbs l h => .src (.mem (.abs l h))
  | .sbcAbs l h => .src (.mem (.abs l h))
  | .incAbs l h => .src (.mem (.abs l h))
  | .iscAbs l h => .src (.mem (.abs l h))
  | .beqRel o => .rel o
  | .sbcIzy z => .src (.mem (.izy z))
  | .jamF2 => .imp
  | .iscIzy z => .src (.mem (.izy z))
  | .nopZpxF4 z => .src (.mem (.zpx z))
  | .sbcZpx z => .src (.mem (.zpx z))
  | .incZpx z => .src (.mem (.zpx z))
  | .iscZpx z => .src (.mem (.zpx z))
  | .sed => .imp
  | .sbcAby l h => .src (.mem (.aby l h))
  | .nopFA => .imp
  | .iscAby l h => .src (.mem (.aby l h))
  | .nopAbxFC l h => .src (.mem (.abx l h))
  | .sbcAbx l h => .src (.mem (.abx l h))
  | .incAbx l h => .src (.mem (.abx l h))
  | .iscAbx l h => .src (.mem (.abx l h))

/-- The bytes of a memory operand, in instruction order (R121). -/
def MemOperand.bytes : MemOperand → List Byte
  | .zp z | .zpx z | .zpy z | .izx z | .izy z => [z]
  | .abs l h | .abx l h | .aby l h => [l, h]

/-- The bytes after the opcode (R121). -/
def Form.bytes : Form → List Byte
  | .imp | .acc => []
  | .src (.imm d) => [d]
  | .src (.mem m) => m.bytes
  | .rel o => [o]
  | .ind l h => [l, h]

end Sys2Proof
end

