-- ==== Sys2Proof/Decode.lean ====
section
/-! DEFINITION. Decoding and encoding (spec/30_encoding.md R120, R121, R125, R127). Both are written from the 256-row table
of R125, one row a line. -/

namespace Sys2Proof

/-- Why bytes are no instruction. No opcode value is undecoded (R126), so the only reason is that bytes are missing. -/
inductive DecodeError where
  /-- There is not even an opcode byte. -/
  | noOpcode
  /-- The opcode's operand bytes (R127) are not all there. -/
  | truncated (opcode : Byte)
deriving DecidableEq, Repr

/-- What an opcode still needs: nothing, one operand byte or two. -/
inductive Shape where
  | b0 (i : Instr)
  | b1 (f : Byte → Instr)
  | b2 (f : Byte → Byte → Instr)

/-- The opcodes 0x00 to 0x0F (R125), by their low nibble. -/
def opcodeRow0 : List Shape :=
  [.b0 .brk, .b1 .oraIzx, .b0 .jam02, .b1 .sloIzx,
   .b1 .nopZp04, .b1 .oraZp, .b1 .aslZp, .b1 .sloZp,
   .b0 .php, .b1 .oraImm, .b0 .aslAcc, .b1 .ancImm0B,
   .b2 .nopAbs0C, .b2 .oraAbs, .b2 .aslAbs, .b2 .sloAbs]

/-- The opcodes 0x10 to 0x1F (R125), by their low nibble. -/
def opcodeRow1 : List Shape :=
  [.b1 .bplRel, .b1 .oraIzy, .b0 .jam12, .b1 .sloIzy,
   .b1 .nopZpx14, .b1 .oraZpx, .b1 .aslZpx, .b1 .sloZpx,
   .b0 .clc, .b2 .oraAby, .b0 .nop1A, .b2 .sloAby,
   .b2 .nopAbx1C, .b2 .oraAbx, .b2 .aslAbx, .b2 .sloAbx]

/-- The opcodes 0x20 to 0x2F (R125), by their low nibble. -/
def opcodeRow2 : List Shape :=
  [.b2 .jsrAbs, .b1 .andIzx, .b0 .jam22, .b1 .rlaIzx,
   .b1 .bitZp, .b1 .andZp, .b1 .rolZp, .b1 .rlaZp,
   .b0 .plp, .b1 .andImm, .b0 .rolAcc, .b1 .ancImm2B,
   .b2 .bitAbs, .b2 .andAbs, .b2 .rolAbs, .b2 .rlaAbs]

/-- The opcodes 0x30 to 0x3F (R125), by their low nibble. -/
def opcodeRow3 : List Shape :=
  [.b1 .bmiRel, .b1 .andIzy, .b0 .jam32, .b1 .rlaIzy,
   .b1 .nopZpx34, .b1 .andZpx, .b1 .rolZpx, .b1 .rlaZpx,
   .b0 .sec, .b2 .andAby, .b0 .nop3A, .b2 .rlaAby,
   .b2 .nopAbx3C, .b2 .andAbx, .b2 .rolAbx, .b2 .rlaAbx]

/-- The opcodes 0x40 to 0x4F (R125), by their low nibble. -/
def opcodeRow4 : List Shape :=
  [.b0 .rti, .b1 .eorIzx, .b0 .jam42, .b1 .sreIzx,
   .b1 .nopZp44, .b1 .eorZp, .b1 .lsrZp, .b1 .sreZp,
   .b0 .pha, .b1 .eorImm, .b0 .lsrAcc, .b1 .alrImm,
   .b2 .jmpAbs, .b2 .eorAbs, .b2 .lsrAbs, .b2 .sreAbs]

/-- The opcodes 0x50 to 0x5F (R125), by their low nibble. -/
def opcodeRow5 : List Shape :=
  [.b1 .bvcRel, .b1 .eorIzy, .b0 .jam52, .b1 .sreIzy,
   .b1 .nopZpx54, .b1 .eorZpx, .b1 .lsrZpx, .b1 .sreZpx,
   .b0 .cli, .b2 .eorAby, .b0 .nop5A, .b2 .sreAby,
   .b2 .nopAbx5C, .b2 .eorAbx, .b2 .lsrAbx, .b2 .sreAbx]

/-- The opcodes 0x60 to 0x6F (R125), by their low nibble. -/
def opcodeRow6 : List Shape :=
  [.b0 .rts, .b1 .adcIzx, .b0 .jam62, .b1 .rraIzx,
   .b1 .nopZp64, .b1 .adcZp, .b1 .rorZp, .b1 .rraZp,
   .b0 .pla, .b1 .adcImm, .b0 .rorAcc, .b1 .arrImm,
   .b2 .jmpInd, .b2 .adcAbs, .b2 .rorAbs, .b2 .rraAbs]

/-- The opcodes 0x70 to 0x7F (R125), by their low nibble. -/
def opcodeRow7 : List Shape :=
  [.b1 .bvsRel, .b1 .adcIzy, .b0 .jam72, .b1 .rraIzy,
   .b1 .nopZpx74, .b1 .adcZpx, .b1 .rorZpx, .b1 .rraZpx,
   .b0 .sei, .b2 .adcAby, .b0 .nop7A, .b2 .rraAby,
   .b2 .nopAbx7C, .b2 .adcAbx, .b2 .rorAbx, .b2 .rraAbx]

/-- The opcodes 0x80 to 0x8F (R125), by their low nibble. -/
def opcodeRow8 : List Shape :=
  [.b1 .nopImm80, .b1 .staIzx, .b1 .nopImm82, .b1 .saxIzx,
   .b1 .styZp, .b1 .staZp, .b1 .stxZp, .b1 .saxZp,
   .b0 .dey, .b1 .nopImm89, .b0 .txa, .b1 .xaaImm,
   .b2 .styAbs, .b2 .staAbs, .b2 .stxAbs, .b2 .saxAbs]

/-- The opcodes 0x90 to 0x9F (R125), by their low nibble. -/
def opcodeRow9 : List Shape :=
  [.b1 .bccRel, .b1 .staIzy, .b0 .jam92, .b1 .shaIzy,
   .b1 .styZpx, .b1 .staZpx, .b1 .stxZpy, .b1 .saxZpy,
   .b0 .tya, .b2 .staAby, .b0 .txs, .b2 .tasAby,
   .b2 .shyAbx, .b2 .staAbx, .b2 .shxAby, .b2 .shaAby]

/-- The opcodes 0xA0 to 0xAF (R125), by their low nibble. -/
def opcodeRowA : List Shape :=
  [.b1 .ldyImm, .b1 .ldaIzx, .b1 .ldxImm, .b1 .laxIzx,
   .b1 .ldyZp, .b1 .ldaZp, .b1 .ldxZp, .b1 .laxZp,
   .b0 .tay, .b1 .ldaImm, .b0 .tax, .b1 .lxaImm,
   .b2 .ldyAbs, .b2 .ldaAbs, .b2 .ldxAbs, .b2 .laxAbs]

/-- The opcodes 0xB0 to 0xBF (R125), by their low nibble. -/
def opcodeRowB : List Shape :=
  [.b1 .bcsRel, .b1 .ldaIzy, .b0 .jamB2, .b1 .laxIzy,
   .b1 .ldyZpx, .b1 .ldaZpx, .b1 .ldxZpy, .b1 .laxZpy,
   .b0 .clv, .b2 .ldaAby, .b0 .tsx, .b2 .lasAby,
   .b2 .ldyAbx, .b2 .ldaAbx, .b2 .ldxAby, .b2 .laxAby]

/-- The opcodes 0xC0 to 0xCF (R125), by their low nibble. -/
def opcodeRowC : List Shape :=
  [.b1 .cpyImm, .b1 .cmpIzx, .b1 .nopImmC2, .b1 .dcpIzx,
   .b1 .cpyZp, .b1 .cmpZp, .b1 .decZp, .b1 .dcpZp,
   .b0 .iny, .b1 .cmpImm, .b0 .dex, .b1 .axsImm,
   .b2 .cpyAbs, .b2 .cmpAbs, .b2 .decAbs, .b2 .dcpAbs]

/-- The opcodes 0xD0 to 0xDF (R125), by their low nibble. -/
def opcodeRowD : List Shape :=
  [.b1 .bneRel, .b1 .cmpIzy, .b0 .jamD2, .b1 .dcpIzy,
   .b1 .nopZpxD4, .b1 .cmpZpx, .b1 .decZpx, .b1 .dcpZpx,
   .b0 .cld, .b2 .cmpAby, .b0 .nopDA, .b2 .dcpAby,
   .b2 .nopAbxDC, .b2 .cmpAbx, .b2 .decAbx, .b2 .dcpAbx]

/-- The opcodes 0xE0 to 0xEF (R125), by their low nibble. -/
def opcodeRowE : List Shape :=
  [.b1 .cpxImm, .b1 .sbcIzx, .b1 .nopImmE2, .b1 .iscIzx,
   .b1 .cpxZp, .b1 .sbcZp, .b1 .incZp, .b1 .iscZp,
   .b0 .inx, .b1 .sbcImm, .b0 .nop, .b1 .sbcImmEB,
   .b2 .cpxAbs, .b2 .sbcAbs, .b2 .incAbs, .b2 .iscAbs]

/-- The opcodes 0xF0 to 0xFF (R125), by their low nibble. -/
def opcodeRowF : List Shape :=
  [.b1 .beqRel, .b1 .sbcIzy, .b0 .jamF2, .b1 .iscIzy,
   .b1 .nopZpxF4, .b1 .sbcZpx, .b1 .incZpx, .b1 .iscZpx,
   .b0 .sed, .b2 .sbcAby, .b0 .nopFA, .b2 .iscAby,
   .b2 .nopAbxFC, .b2 .sbcAbx, .b2 .incAbx, .b2 .iscAbx]

/-- The opcode map (R125), sixteen rows of sixteen. -/
def opcodeRows : List (List Shape) :=
  [opcodeRow0, opcodeRow1, opcodeRow2, opcodeRow3, opcodeRow4, opcodeRow5, opcodeRow6, opcodeRow7,
   opcodeRow8, opcodeRow9, opcodeRowA, opcodeRowB, opcodeRowC, opcodeRowD, opcodeRowE, opcodeRowF]

/-- What the opcode byte says: the map at its high and low nibble. Both indices are below 16, so the default is never used. -/
def opcodeShape (op : Byte) : Shape := (opcodeRows.getD (op.toNat / 16) []).getD (op.toNat % 16) (.b0 .nop)

/-- Decode the first instruction of `bs`; the rest of the list comes back. -/
def decode : List Byte → Except DecodeError (Instr × List Byte)
  | [] => .error .noOpcode
  | op :: rest =>
    match opcodeShape op, rest with
    | .b0 i, rest => .ok (i, rest)
    | .b1 f, b :: rest => .ok (f b, rest)
    | .b2 f, b :: c :: rest => .ok (f b c, rest)
    | _, _ => .error (.truncated op)

/-- The instruction's length in bytes, a function of the opcode alone (R127). -/
def instrLength (op : Byte) : Nat :=
  match opcodeShape op with
  | .b0 _ => 1
  | .b1 _ => 2
  | .b2 _ => 3

/-- The opcode column of R125. -/
def Instr.opcode : Instr → Byte
  | .brk => 0x00
  | .oraIzx _ => 0x01
  | .jam02 => 0x02
  | .sloIzx _ => 0x03
  | .nopZp04 _ => 0x04
  | .oraZp _ => 0x05
  | .aslZp _ => 0x06
  | .sloZp _ => 0x07
  | .php => 0x08
  | .oraImm _ => 0x09
  | .aslAcc => 0x0A
  | .ancImm0B _ => 0x0B
  | .nopAbs0C _ _ => 0x0C
  | .oraAbs _ _ => 0x0D
  | .aslAbs _ _ => 0x0E
  | .sloAbs _ _ => 0x0F
  | .bplRel _ => 0x10
  | .oraIzy _ => 0x11
  | .jam12 => 0x12
  | .sloIzy _ => 0x13
  | .nopZpx14 _ => 0x14
  | .oraZpx _ => 0x15
  | .aslZpx _ => 0x16
  | .sloZpx _ => 0x17
  | .clc => 0x18
  | .oraAby _ _ => 0x19
  | .nop1A => 0x1A
  | .sloAby _ _ => 0x1B
  | .nopAbx1C _ _ => 0x1C
  | .oraAbx _ _ => 0x1D
  | .aslAbx _ _ => 0x1E
  | .sloAbx _ _ => 0x1F
  | .jsrAbs _ _ => 0x20
  | .andIzx _ => 0x21
  | .jam22 => 0x22
  | .rlaIzx _ => 0x23
  | .bitZp _ => 0x24
  | .andZp _ => 0x25
  | .rolZp _ => 0x26
  | .rlaZp _ => 0x27
  | .plp => 0x28
  | .andImm _ => 0x29
  | .rolAcc => 0x2A
  | .ancImm2B _ => 0x2B
  | .bitAbs _ _ => 0x2C
  | .andAbs _ _ => 0x2D
  | .rolAbs _ _ => 0x2E
  | .rlaAbs _ _ => 0x2F
  | .bmiRel _ => 0x30
  | .andIzy _ => 0x31
  | .jam32 => 0x32
  | .rlaIzy _ => 0x33
  | .nopZpx34 _ => 0x34
  | .andZpx _ => 0x35
  | .rolZpx _ => 0x36
  | .rlaZpx _ => 0x37
  | .sec => 0x38
  | .andAby _ _ => 0x39
  | .nop3A => 0x3A
  | .rlaAby _ _ => 0x3B
  | .nopAbx3C _ _ => 0x3C
  | .andAbx _ _ => 0x3D
  | .rolAbx _ _ => 0x3E
  | .rlaAbx _ _ => 0x3F
  | .rti => 0x40
  | .eorIzx _ => 0x41
  | .jam42 => 0x42
  | .sreIzx _ => 0x43
  | .nopZp44 _ => 0x44
  | .eorZp _ => 0x45
  | .lsrZp _ => 0x46
  | .sreZp _ => 0x47
  | .pha => 0x48
  | .eorImm _ => 0x49
  | .lsrAcc => 0x4A
  | .alrImm _ => 0x4B
  | .jmpAbs _ _ => 0x4C
  | .eorAbs _ _ => 0x4D
  | .lsrAbs _ _ => 0x4E
  | .sreAbs _ _ => 0x4F
  | .bvcRel _ => 0x50
  | .eorIzy _ => 0x51
  | .jam52 => 0x52
  | .sreIzy _ => 0x53
  | .nopZpx54 _ => 0x54
  | .eorZpx _ => 0x55
  | .lsrZpx _ => 0x56
  | .sreZpx _ => 0x57
  | .cli => 0x58
  | .eorAby _ _ => 0x59
  | .nop5A => 0x5A
  | .sreAby _ _ => 0x5B
  | .nopAbx5C _ _ => 0x5C
  | .eorAbx _ _ => 0x5D
  | .lsrAbx _ _ => 0x5E
  | .sreAbx _ _ => 0x5F
  | .rts => 0x60
  | .adcIzx _ => 0x61
  | .jam62 => 0x62
  | .rraIzx _ => 0x63
  | .nopZp64 _ => 0x64
  | .adcZp _ => 0x65
  | .rorZp _ => 0x66
  | .rraZp _ => 0x67
  | .pla => 0x68
  | .adcImm _ => 0x69
  | .rorAcc => 0x6A
  | .arrImm _ => 0x6B
  | .jmpInd _ _ => 0x6C
  | .adcAbs _ _ => 0x6D
  | .rorAbs _ _ => 0x6E
  | .rraAbs _ _ => 0x6F
  | .bvsRel _ => 0x70
  | .adcIzy _ => 0x71
  | .jam72 => 0x72
  | .rraIzy _ => 0x73
  | .nopZpx74 _ => 0x74
  | .adcZpx _ => 0x75
  | .rorZpx _ => 0x76
  | .rraZpx _ => 0x77
  | .sei => 0x78
  | .adcAby _ _ => 0x79
  | .nop7A => 0x7A
  | .rraAby _ _ => 0x7B
  | .nopAbx7C _ _ => 0x7C
  | .adcAbx _ _ => 0x7D
  | .rorAbx _ _ => 0x7E
  | .rraAbx _ _ => 0x7F
  | .nopImm80 _ => 0x80
  | .staIzx _ => 0x81
  | .nopImm82 _ => 0x82
  | .saxIzx _ => 0x83
  | .styZp _ => 0x84
  | .staZp _ => 0x85
  | .stxZp _ => 0x86
  | .saxZp _ => 0x87
  | .dey => 0x88
  | .nopImm89 _ => 0x89
  | .txa => 0x8A
  | .xaaImm _ => 0x8B
  | .styAbs _ _ => 0x8C
  | .staAbs _ _ => 0x8D
  | .stxAbs _ _ => 0x8E
  | .saxAbs _ _ => 0x8F
  | .bccRel _ => 0x90
  | .staIzy _ => 0x91
  | .jam92 => 0x92
  | .shaIzy _ => 0x93
  | .styZpx _ => 0x94
  | .staZpx _ => 0x95
  | .stxZpy _ => 0x96
  | .saxZpy _ => 0x97
  | .tya => 0x98
  | .staAby _ _ => 0x99
  | .txs => 0x9A
  | .tasAby _ _ => 0x9B
  | .shyAbx _ _ => 0x9C
  | .staAbx _ _ => 0x9D
  | .shxAby _ _ => 0x9E
  | .shaAby _ _ => 0x9F
  | .ldyImm _ => 0xA0
  | .ldaIzx _ => 0xA1
  | .ldxImm _ => 0xA2
  | .laxIzx _ => 0xA3
  | .ldyZp _ => 0xA4
  | .ldaZp _ => 0xA5
  | .ldxZp _ => 0xA6
  | .laxZp _ => 0xA7
  | .tay => 0xA8
  | .ldaImm _ => 0xA9
  | .tax => 0xAA
  | .lxaImm _ => 0xAB
  | .ldyAbs _ _ => 0xAC
  | .ldaAbs _ _ => 0xAD
  | .ldxAbs _ _ => 0xAE
  | .laxAbs _ _ => 0xAF
  | .bcsRel _ => 0xB0
  | .ldaIzy _ => 0xB1
  | .jamB2 => 0xB2
  | .laxIzy _ => 0xB3
  | .ldyZpx _ => 0xB4
  | .ldaZpx _ => 0xB5
  | .ldxZpy _ => 0xB6
  | .laxZpy _ => 0xB7
  | .clv => 0xB8
  | .ldaAby _ _ => 0xB9
  | .tsx => 0xBA
  | .lasAby _ _ => 0xBB
  | .ldyAbx _ _ => 0xBC
  | .ldaAbx _ _ => 0xBD
  | .ldxAby _ _ => 0xBE
  | .laxAby _ _ => 0xBF
  | .cpyImm _ => 0xC0
  | .cmpIzx _ => 0xC1
  | .nopImmC2 _ => 0xC2
  | .dcpIzx _ => 0xC3
  | .cpyZp _ => 0xC4
  | .cmpZp _ => 0xC5
  | .decZp _ => 0xC6
  | .dcpZp _ => 0xC7
  | .iny => 0xC8
  | .cmpImm _ => 0xC9
  | .dex => 0xCA
  | .axsImm _ => 0xCB
  | .cpyAbs _ _ => 0xCC
  | .cmpAbs _ _ => 0xCD
  | .decAbs _ _ => 0xCE
  | .dcpAbs _ _ => 0xCF
  | .bneRel _ => 0xD0
  | .cmpIzy _ => 0xD1
  | .jamD2 => 0xD2
  | .dcpIzy _ => 0xD3
  | .nopZpxD4 _ => 0xD4
  | .cmpZpx _ => 0xD5
  | .decZpx _ => 0xD6
  | .dcpZpx _ => 0xD7
  | .cld => 0xD8
  | .cmpAby _ _ => 0xD9
  | .nopDA => 0xDA
  | .dcpAby _ _ => 0xDB
  | .nopAbxDC _ _ => 0xDC
  | .cmpAbx _ _ => 0xDD
  | .decAbx _ _ => 0xDE
  | .dcpAbx _ _ => 0xDF
  | .cpxImm _ => 0xE0
  | .sbcIzx _ => 0xE1
  | .nopImmE2 _ => 0xE2
  | .iscIzx _ => 0xE3
  | .cpxZp _ => 0xE4
  | .sbcZp _ => 0xE5
  | .incZp _ => 0xE6
  | .iscZp _ => 0xE7
  | .inx => 0xE8
  | .sbcImm _ => 0xE9
  | .nop => 0xEA
  | .sbcImmEB _ => 0xEB
  | .cpxAbs _ _ => 0xEC
  | .sbcAbs _ _ => 0xED
  | .incAbs _ _ => 0xEE
  | .iscAbs _ _ => 0xEF
  | .beqRel _ => 0xF0
  | .sbcIzy _ => 0xF1
  | .jamF2 => 0xF2
  | .iscIzy _ => 0xF3
  | .nopZpxF4 _ => 0xF4
  | .sbcZpx _ => 0xF5
  | .incZpx _ => 0xF6
  | .iscZpx _ => 0xF7
  | .sed => 0xF8
  | .sbcAby _ _ => 0xF9
  | .nopFA => 0xFA
  | .iscAby _ _ => 0xFB
  | .nopAbxFC _ _ => 0xFC
  | .sbcAbx _ _ => 0xFD
  | .incAbx _ _ => 0xFE
  | .iscAbx _ _ => 0xFF

/-- The official opcode values are the 151 documented ones (spec/00_scope.md R2; the mnemonics without `*` in R125). -/
def Mnem.official : Mnem → Bool
  | .jam | .slo | .rla | .sre | .rra | .dcp | .isc | .sax | .lax | .las | .anc | .alr | .arr | .axs | .xaa | .lxa
  | .sha | .shy | .shx | .tas | .nopU | .sbcU => false
  | _ => true

/-- The words of an instruction: its opcode byte, then its operand bytes in instruction order (R121). -/
def encode (i : Instr) : List Byte := i.opcode :: i.form.bytes

/-- Bytes of `w` from bit 0 upward: byte `k` is bits `8k+7 .. 8k`. -/
def bytesOfNat : Nat → Nat → List Byte
  | 0, _ => []
  | n + 1, w => BitVec.ofNat 8 w :: bytesOfNat n (w / 256)

/-- The longest instruction's bytes (R120) of a table word: the low `nbits` bits of `w`, zero above. -/
def tableBytes (nbits w : Nat) : List Byte := bytesOfNat 3 (w % 2 ^ nbits)

/-- The instruction the decoder reads from a table word whose first byte is in bits 7..0. -/
def decodeTableWord (nbits w : Nat) : Option Instr :=
  match decode (tableBytes nbits w) with
  | .ok (i, _) => some i
  | .error _ => none

end Sys2Proof
end

