-- ==== Sys2Proof/Machine/Memory.lean ====
section
/-! DEFINITION. Arrays of the machine as plain data: a list of (offset, value) pairs in one canonical form. -/

namespace Sys2Proof.Machine

/-- An array of `w`-bit values: the entries that are not 0. With `w = 8` an entry is a `Host.Cell`. -/
abbrev Mem (w : Nat) := List (Nat × BitVec w)

/-- What an offset that is not listed reads as. Every array the spec clears at power-on is 0x00 there
(spec/70_reset_and_hazards.md R631); for RAM it is a DESIGN CHOICE (log 3). -/
def unlisted (w : Nat) : BitVec w := 0#w

/-- The value at offset `a`. -/
def Mem.read {w : Nat} : Mem w → Nat → BitVec w
  | [], _ => unlisted w
  | (k, v) :: t, a => if k = a then v else Mem.read t a

/-- Put an entry before the first entry with a larger offset. -/
def Mem.insertSorted {w : Nat} : Mem w → Nat → BitVec w → Mem w
  | [], a, v => [(a, v)]
  | (k, x) :: t, a, v =>
    if k < a then (k, x) :: Mem.insertSorted t a v else (a, v) :: (k, x) :: t

/-- Remove the entries at offset `a`. -/
def Mem.erase {w : Nat} : Mem w → Nat → Mem w
  | [], _ => []
  | (k, x) :: t, a => if k = a then Mem.erase t a else (k, x) :: Mem.erase t a

/-- Store `v` at offset `a`; storing what an unlisted offset reads as removes the entry. -/
def Mem.write {w : Nat} (m : Mem w) (a : Nat) (v : BitVec w) : Mem w :=
  if v = unlisted w then Mem.erase m a else Mem.insertSorted (Mem.erase m a) a v

/-- The canonical form: offsets strictly rising, no entry equal to what an unlisted offset reads as. -/
def Mem.wf {w : Nat} : Mem w → Bool
  | [] => true
  | (k, x) :: t => x != unlisted w && t.all (fun e => k < e.1) && Mem.wf t

/-- Append the bytes of `bs` from offset `a` upward; used on arrays all of whose offsets are below `a`. -/
def Mem.ofBytesFrom (a : Nat) : List Byte → Mem 8
  | [] => []
  | b :: t => if b = unlisted 8 then Mem.ofBytesFrom (a + 1) t else (a, b) :: Mem.ofBytesFrom (a + 1) t

/-- The array that holds the bytes of `bs` from offset 0. -/
def Mem.ofBytes (bs : List Byte) : Mem 8 := Mem.ofBytesFrom 0 bs

/-- The first `n` bytes of an array, written out. -/
def Mem.toBytes (m : Mem 8) (n : Nat) : List Byte := (List.range n).map (Mem.read m)

end Sys2Proof.Machine
end

