-- ==== Sys2Proof/Config.lean ====
section
/-! DEFINITION. The configuration record (spec/00_scope.md R6) and the one uninterpreted parameter, PALETTE_RGBA. -/

namespace Sys2Proof

/-- `REGION` (R6, R7). -/
inductive Region where
  | ntsc
  | pal
deriving DecidableEq, Repr

/-- `UNOFFICIAL` (R6, R9; spec/92_eei_decisions.md D2). -/
inductive UnofficialMode where
  | documented
  | nop
deriving DecidableEq, Repr

/-- `MMC3_IRQ_VARIANT` (R6, D24). -/
inductive Mmc3Variant where
  | sharp
  | nec
deriving DecidableEq, Repr

/-- `PAD3_WIRING` (R6, D34). -/
inductive Pad3Wiring where
  | port0Bit1
  | absent
deriving DecidableEq, Repr

/-- The configuration: constant after `Load` (spec/64_orchestrator.md R618). `REGION` is installed by `Load` and stands with
the cartridge. Held in the state as plain data, so that a statement about every state is a statement about every value of
every parameter (log 4). -/
structure Params where
  unofficial : UnofficialMode
  /-- The XAA component of `MAGIC` (spec/46_unofficial.md R294). -/
  magicXaa : Byte
  /-- The LXA component of `MAGIC` (R295). -/
  magicLxa : Byte
  /-- `RAM_INIT`, the content of work RAM at power-on (spec/10_state.md R55). -/
  ramInit : Machine.Mem 8
  /-- `DMC_STALL` (spec/63_apu.md R566). -/
  dmcStall : Nat
  mmc3Variant : Mmc3Variant
  pad3 : Pad3Wiring
  /-- `PCM_SCALE`, at most 32767 (spec/63_apu.md R571). -/
  pcmScale : Nat
  /-- `SAMPLE_RATE` in Hz (spec/63_apu.md R574). -/
  sampleRate : Nat
  /-- The battery-backup enable flag (spec/64_orchestrator.md R594). -/
  batteryBackup : Bool
deriving DecidableEq, Repr

/-- The defaults of R6; RAM_INIT, SAMPLE_RATE and the battery-backup flag have none (logs 3 and 4: DESIGN CHOICE). -/
def Params.default : Params where
  unofficial := .documented
  magicXaa := 0xEE
  magicLxa := 0xFF
  ramInit := []
  dmcStall := 4
  mmc3Variant := .sharp
  pad3 := .port0Bit1
  pcmScale := 32767
  sampleRate := 44100
  batteryBackup := true

/-- `PALETTE_RGBA` (spec/62_ppu.md R497, D27): "the model must not assume any particular colour for any index" (log 5). -/
opaque Config.paletteRgba : Region → BitVec 6 → BitVec 3 → BitVec 32

end Sys2Proof
end

