-- ==== Sys2Proof/Machine/Clock.lean ====
section
/-! DEFINITION. The region constants of the clock generator and the PPU (spec/64_orchestrator.md R596, spec/62_ppu.md R452). -/

namespace Sys2Proof

/-- `MASTER_HZ` (R596). -/
def Region.masterHz : Region → Nat
  | .ntsc => 21477272
  | .pal => 26601712

/-- `CPU_DIV`, master cycles per CPU cycle (R596). -/
def Region.cpuDiv : Region → Nat
  | .ntsc => 12
  | .pal => 16

/-- `PPU_DIV`, master cycles per PPU dot (R596, R452). -/
def Region.ppuDiv : Region → Nat
  | .ntsc => 4
  | .pal => 5

/-- `PRE`, the pre-render line (R452). -/
def Region.preLine : Region → Nat
  | .ntsc => 261
  | .pal => 311

/-- `ODD_SKIP` (R451, R452; D29). -/
def Region.oddSkip : Region → Bool
  | .ntsc => true
  | .pal => false

end Sys2Proof
end

