-- ==== Sys2Proof/Machine/State.lean ====
section
/-! DEFINITION. The state of the machine as plain data (spec/10_state.md, 61_bus_mapper.md, 62_ppu.md, 63_apu.md,
64_orchestrator.md), the reasons a step can stop, and the state after reset. Field names are the spec's. -/

namespace Sys2Proof.Machine

/-- Why a step has no next state although the instruction set gives every instruction one. -/
inductive Fault where
  /-- Raised by `step` in the power state OFF: the CPU is stepped only from `ExecuteFrame`, which in OFF "returns
  Error(NotPowered)" and changes nothing (spec/64_orchestrator.md R600, R601). Safe: the machine stops. -/
  | notPowered
  /-- Raised by `step` when the stall loop of spec/10_state.md R51 does not end, because the DMC requests stall cycles at
  least as fast as they are spent (a `DMC_STALL` of eight DMC periods or more, on a looping sample). The rule then gives no
  next state (log 6). Safe: the machine stops. -/
  | stallNeverEnds
deriving DecidableEq, Repr

/-- Why a step is refused. -/
inductive Refusal where
  /-- Raised by an arm of `exec` whose instruction has no meaning yet, by its mnemonic. Safe: the machine stops. No arm of this
  model raises it. -/
  | notModelled (mnemonic : String)
  /-- Raised by `step` if the bytes it fetched were no whole instruction. It fetches as many as the opcode needs, so no state
  leads here. Safe. -/
  | undecodable
deriving DecidableEq, Repr

/-- The CPU's registers and its six flags (spec/10_state.md R30 to R42). Bits 5 and 4 of the flag byte are not state (R43). -/
structure Cpu where
  a : Byte
  x : Byte
  y : Byte
  /-- The stack pointer; the stack address is `0x0100 + s` (R34). -/
  s : Byte
  pc : Addr
  c : Bool
  z : Bool
  i : Bool
  d : Bool
  v : Bool
  n : Bool
deriving DecidableEq, Repr

/-- The hidden state of the CPU and the clock counters (R45, R48 to R54; spec/20_memory.md R96). -/
structure Bus where
  /-- `DB`, the data-bus latch (R48). -/
  db : Byte
  nmiPrev : Bool
  nmiPending : Bool
  /-- Stall cycles requested and not yet spent (R51). -/
  stall : Nat
  oamdmaPending : Bool
  oamdmaPage : Byte
  /-- CPU cycles since power-on (R52). -/
  cyc : Nat
  /-- The master cycle counter (R53). -/
  mclk : Nat
  resetPending : Bool
deriving DecidableEq, Repr

/-- The supported mapper families (spec/61_bus_mapper.md R372, R425). -/
inductive MapperId where
  | nrom
  | mmc1
  | unrom
  | mmc3
deriving DecidableEq, Repr

/-- The mirroring modes (R385) a header or a register can select. -/
inductive Mirroring where
  | horizontal
  | vertical
  | oneLower
  | oneUpper
deriving DecidableEq, Repr

/-- What `Load` installs: the image's parts and the cartridge parameters (R370, R371, R374). Constant until the next `Load`. -/
structure Image where
  /-- An image is loaded (spec/64_orchestrator.md R591). -/
  loaded : Bool
  region : Region
  mapperId : MapperId
  /-- The PRG-ROM bytes; `prg_size = prgCount * 16384`. -/
  prg : Mem 8
  prgCount : Nat
  /-- The CHR-ROM bytes; `chrCount = 0` means 8 KiB of CHR-RAM instead. -/
  chrRom : Mem 8
  chrCount : Nat
  mirroring : Mirroring
  fourScreen : Bool
  battery : Bool
  regionHint : Region
  /-- The 512 trainer bytes, when the header has them (R371, R376). -/
  trainer : Option (List Byte)
  /-- The battery blob kept for `Power(true)` (spec/64_orchestrator.md R592, R594). -/
  blob : Option (List Byte)
deriving DecidableEq, Repr

/-- MMC1's registers (spec/61_bus_mapper.md R399). -/
structure Mmc1 where
  sr : BitVec 5
  srCount : Nat
  control : BitVec 5
  chr0 : BitVec 5
  chr1 : BitVec 5
  prg : BitVec 5
  /-- `cyc` at the most recent CPU write to 0x8000-0xFFFF, or none. -/
  lastWriteCyc : Option Nat
deriving DecidableEq, Repr

/-- MMC3's registers (R410). -/
structure Mmc3 where
  bankSelect : Byte
  r : Vector Byte 8
  mirror : Bool
  ramProtect : Byte
  irqLatch : Byte
  irqCounter : Byte
  irqReload : Bool
  irqEnabled : Bool
  mapperIrq : Bool
  a12Low : Nat
deriving DecidableEq, Repr

/-- The registers of the mapper the cartridge has (R392, R395, R399, R410). -/
inductive Mapper where
  | nrom
  | mmc1 (r : Mmc1)
  | unrom (bank : Byte)
  | mmc3 (r : Mmc3)
deriving DecidableEq, Repr

/-- One sprite output unit (spec/62_ppu.md R431, R486). -/
structure SpriteUnit where
  patLo : Byte
  patHi : Byte
  attr : Byte
  xpos : Byte
  isS0 : Bool
deriving DecidableEq, Repr

/-- The PPU (R431). `scanline` and `dot` name the next dot to run. -/
structure Ppu where
  ctrl : Byte
  mask : Byte
  vblankFlag : Bool
  sprite0Hit : Bool
  spriteOverflow : Bool
  vblSuppress : Bool
  oamaddr : Byte
  v : BitVec 15
  t : BitVec 15
  x : BitVec 3
  w : Bool
  readBuffer : Byte
  ioLatch : Byte
  oam : Mem 8
  soam : Vector Byte 32
  soamCount : Nat
  spr0Next : Bool
  pal : Mem 6
  scanline : Nat
  dot : Nat
  oddFrame : Bool
  frameCount : Nat
  /-- `ppu_abus`, the PPU address bus (R476). -/
  abus : BitVec 14
  ntByte : Byte
  atBits : BitVec 2
  ptLo : Byte
  ptHi : Byte
  bgLo : BitVec 16
  bgHi : BitVec 16
  atLo : BitVec 16
  atHi : BitVec 16
  /-- `lo` of R484: read at phase 5 of a sprite slot, used at phase 7 (log 9: DEDUCED). A slot whose phase 5 did not run, rendering
  being off then, uses what the latch holds (log 9: DESIGN CHOICE). -/
  sprLo : Byte
  units : Vector SpriteUnit 8
  /-- `fb_work`, 9 bits a pixel (emphasis above colour), at offset `256 * line + column` (R496, R498). -/
  fbWork : Mem 9
  /-- The published frame (R499): none while every byte of `fb` is still the power-on 0, else the region and the pixels whose
  `PALETTE_RGBA` it holds (log 5). -/
  fb : Option (Region × Mem 9)
  /-- `ppu.want_video` (spec/64_orchestrator.md R601). -/
  wantVideo : Bool
deriving DecidableEq, Repr

/-- An envelope generator (spec/63_apu.md R511, R536), with the fields of register 0 it reads. -/
structure Envelope where
  /-- `halt`, also the envelope loop. -/
  halt : Bool
  const : Bool
  vol : BitVec 4
  start : Bool
  div : BitVec 4
  decay : BitVec 4
deriving DecidableEq, Repr

/-- A pulse channel (R511). -/
structure Pulse where
  duty : BitVec 2
  env : Envelope
  swEn : Bool
  swPeriod : BitVec 3
  swNeg : Bool
  swShift : BitVec 3
  swReload : Bool
  swDiv : BitVec 3
  period : BitVec 11
  timer : BitVec 11
  seq : BitVec 3
  length : Byte
  enabled : Bool
deriving DecidableEq, Repr

/-- The triangle channel (R511). -/
structure Triangle where
  /-- `control`, also the length halt. -/
  control : Bool
  linReloadVal : BitVec 7
  lin : BitVec 7
  linReload : Bool
  period : BitVec 11
  timer : BitVec 11
  seq : BitVec 5
  length : Byte
  enabled : Bool
deriving DecidableEq, Repr

/-- The noise channel (R511). -/
structure Noise where
  env : Envelope
  mode : Bool
  periodIdx : BitVec 4
  timer : BitVec 12
  lfsr : BitVec 15
  length : Byte
  enabled : Bool
deriving DecidableEq, Repr

/-- The DMC channel (R511). -/
structure Dmc where
  irqEn : Bool
  loop : Bool
  rateIdx : BitVec 4
  level : BitVec 7
  addrReg : Byte
  lenReg : Byte
  curAddr : Addr
  remaining : BitVec 12
  buffer : Byte
  bufferEmpty : Bool
  shift : Byte
  bits : Nat
  silence : Bool
  timer : BitVec 9
deriving DecidableEq, Repr

/-- The APU (R511). -/
structure Apu where
  pulse1 : Pulse
  pulse2 : Pulse
  triangle : Triangle
  noise : Noise
  dmc : Dmc
  fcMode : Bool
  fcInhibit : Bool
  fc : Nat
  fcResetDelay : Nat
  frameIrq : Bool
  dmcIrq : Bool
  sampleAcc : Nat
  audioWork : List (BitVec 16)
deriving DecidableEq, Repr

/-- An input snapshot: three pads and the gun (spec/64_orchestrator.md R606). -/
structure InputSnapshot where
  pad0 : Byte
  pad1 : Byte
  pad2 : Byte
  gunX : Int
  gunY : Int
  gunTrigger : Bool
deriving DecidableEq, Repr

/-- The input ports (R606, R607). -/
structure Input where
  strobe : Bool
  sh0 : Byte
  sh1 : Byte
  sh2 : Byte
  latched : InputSnapshot
deriving DecidableEq, Repr

/-- The power state (R591). -/
inductive Power where
  | off
  | powered
  | running
deriving DecidableEq, Repr

/-- The two operations of the file-IO collaborator (spec/64_orchestrator.md R594). -/
inductive FileOp where
  | read
  | write
deriving DecidableEq, Repr

/-- A record of the diagnostic stream (spec/00_scope.md R18, spec/60_exceptions.md R335): a ghost output (log 15). -/
inductive Diagnostic where
  | illegalOpcode (opcode : Byte) (address : Addr)
  | busConflict (address : Addr) (cpuValue romValue : Byte)
  /-- An IOFault, which is logged (spec/61_bus_mapper.md R377, spec/64_orchestrator.md R594; log 28). -/
  | ioFault (op : FileOp)
deriving DecidableEq, Repr

/-- The whole machine. -/
structure State where
  cfg : Params
  image : Image
  cpu : Cpu
  bus : Bus
  /-- The 2 KiB of work RAM (spec/10_state.md R55). -/
  ram : Mem 8
  /-- PRG-RAM (spec/61_bus_mapper.md R375). -/
  prgRam : Mem 8
  /-- CHR-RAM, when the cartridge has it (R375). -/
  chrRam : Mem 8
  /-- Nametable RAM (R375). -/
  ciram : Mem 8
  mapper : Mapper
  ppu : Ppu
  apu : Apu
  input : Input
  power : Power
  /-- `audio_mark` (spec/64_orchestrator.md R602). -/
  audioMark : Nat
  /-- Ghost: the diagnostic stream, oldest first (log 15). -/
  diag : List Diagnostic
  /-- Ghost: the battery backups handed to the file-IO collaborator, oldest first (spec/61_bus_mapper.md R377; log 28). -/
  backups : List (List Byte)
  /-- Ghost: a JAM opcode has been executed since power-on (spec/93_implementation_defined.md U5; log 15). -/
  jamSeen : Bool
  /-- The model's own: a stall loop did not end (log 6). -/
  hung : Bool
deriving DecidableEq, Repr

/-- Power-on values of the CPU, before the reset sequence (spec/10_state.md R56). -/
def Cpu.powerOn : Cpu where
  a := 0
  x := 0
  y := 0
  s := 0
  pc := 0
  c := false
  z := false
  i := true
  d := false
  v := false
  n := false

/-- Power-on values of R45's state (R56). -/
def Bus.powerOn : Bus where
  db := 0
  nmiPrev := false
  nmiPending := false
  stall := 0
  oamdmaPending := false
  oamdmaPage := 0
  cyc := 0
  mclk := 0
  resetPending := true

/-- MMC1 at power-on (spec/61_bus_mapper.md R406). -/
def Mmc1.powerOn : Mmc1 where
  sr := 0
  srCount := 0
  control := 0x0C
  chr0 := 0
  chr1 := 0
  prg := 0
  lastWriteCyc := none

/-- MMC3 at power-on (R421): `mirror` is 1 when the header says horizontal. -/
def Mmc3.powerOn (m : Mirroring) : Mmc3 where
  bankSelect := 0
  r := #v[0, 2, 4, 5, 6, 7, 0, 1]
  mirror := m == .horizontal
  ramProtect := 0x80
  irqLatch := 0
  irqCounter := 0
  irqReload := false
  irqEnabled := false
  mapperIrq := false
  a12Low := 0

/-- The cartridge's mapper at power-on (R392, R396, R406, R421). -/
def Mapper.powerOn (im : Image) : Mapper :=
  match im.mapperId with
  | .nrom => .nrom
  | .mmc1 => .mmc1 Mmc1.powerOn
  | .unrom => .unrom 0
  | .mmc3 => .mmc3 (Mmc3.powerOn im.mirroring)

/-- An empty sprite unit (spec/62_ppu.md R486, R504). -/
def SpriteUnit.empty : SpriteUnit where
  patLo := 0
  patHi := 0
  attr := 0
  xpos := 0
  isS0 := false

/-- The PPU at power-on (R504). `want_video` is not reset by the spec; it is set by every `ExecuteFrame` before a step runs
(log 4: DESIGN CHOICE true). -/
def Ppu.powerOn : Ppu where
  ctrl := 0
  mask := 0
  vblankFlag := false
  sprite0Hit := false
  spriteOverflow := false
  vblSuppress := false
  oamaddr := 0
  v := 0
  t := 0
  x := 0
  w := false
  readBuffer := 0
  ioLatch := 0
  oam := []
  soam := Vector.replicate 32 0xFF
  soamCount := 0
  spr0Next := false
  pal := []
  scanline := 0
  dot := 0
  oddFrame := false
  frameCount := 0
  abus := 0
  ntByte := 0
  atBits := 0
  ptLo := 0
  ptHi := 0
  bgLo := 0
  bgHi := 0
  atLo := 0
  atHi := 0
  sprLo := 0
  units := Vector.replicate 8 SpriteUnit.empty
  fbWork := []
  fb := none
  wantVideo := true

/-- An envelope at power-on (spec/63_apu.md R580). -/
def Envelope.powerOn : Envelope where
  halt := false
  const := false
  vol := 0
  start := false
  div := 0
  decay := 0

/-- A pulse channel at power-on (R580). -/
def Pulse.powerOn : Pulse where
  duty := 0
  env := Envelope.powerOn
  swEn := false
  swPeriod := 0
  swNeg := false
  swShift := 0
  swReload := false
  swDiv := 0
  period := 0
  timer := 0
  seq := 0
  length := 0
  enabled := false

/-- The triangle channel at power-on (R580). -/
def Triangle.powerOn : Triangle where
  control := false
  linReloadVal := 0
  lin := 0
  linReload := false
  period := 0
  timer := 0
  seq := 0
  length := 0
  enabled := false

/-- The noise channel at power-on (R580): `lfsr` is 1. -/
def Noise.powerOn : Noise where
  env := Envelope.powerOn
  mode := false
  periodIdx := 0
  timer := 0
  lfsr := 1
  length := 0
  enabled := false

/-- The DMC channel at power-on (R580; `buffer`: log 10). -/
def Dmc.powerOn : Dmc where
  irqEn := false
  loop := false
  rateIdx := 0
  level := 0
  addrReg := 0
  lenReg := 0
  curAddr := 0xC000
  remaining := 0
  buffer := 0
  bufferEmpty := true
  shift := 0
  bits := 8
  silence := true
  timer := 0

/-- The APU at power-on (R580). -/
def Apu.powerOn : Apu where
  pulse1 := Pulse.powerOn
  pulse2 := Pulse.powerOn
  triangle := Triangle.powerOn
  noise := Noise.powerOn
  dmc := Dmc.powerOn
  fcMode := false
  fcInhibit := false
  fc := 0
  fcResetDelay := 0
  frameIrq := false
  dmcIrq := false
  sampleAcc := 0
  audioWork := []

/-- Nothing pressed, gun at (0, 0) (spec/64_orchestrator.md R611). -/
def InputSnapshot.idle : InputSnapshot where
  pad0 := 0
  pad1 := 0
  pad2 := 0
  gunX := 0
  gunY := 0
  gunTrigger := false

/-- The input ports at power-on (R611). -/
def Input.powerOn : Input where
  strobe := false
  sh0 := 0
  sh1 := 0
  sh2 := 0
  latched := InputSnapshot.idle

/-- The cartridge State.reset has: an NROM of 32 KiB that lists nothing, so every PRG byte is 0x00 (log 2: DESIGN CHOICE). -/
def Image.blank : Image where
  loaded := true
  region := .ntsc
  mapperId := .nrom
  prg := []
  prgCount := 2
  chrRom := []
  chrCount := 0
  mirroring := .horizontal
  fourScreen := false
  battery := false
  regionHint := .ntsc
  trainer := none
  blob := none

/-- The machine right after `Power(true)` (spec/70_reset_and_hazards.md R630, R631): every unit at its power-on values,
`reset_pending` set, nothing stepped (log 1). -/
def State.reset : State where
  cfg := Params.default
  image := Image.blank
  cpu := Cpu.powerOn
  bus := Bus.powerOn
  ram := Params.default.ramInit
  prgRam := []
  chrRam := []
  ciram := []
  mapper := .nrom
  ppu := Ppu.powerOn
  apu := Apu.powerOn
  input := Input.powerOn
  power := .powered
  audioMark := 0
  diag := []
  backups := []
  jamSeen := false
  hung := false

end Sys2Proof.Machine
end

