-- ==== Sys2Proof/Machine/Apu.lean ====
section
/-! DEFINITION. The APU: register writes, the shared units, the frame counter, the channel generators, the mixer and the
sampler (spec/63_apu.md). -/

namespace Sys2Proof.Machine

/-! Tables. -/

/-- `LEN[0..31]` (R535). -/
def lenTable : List Nat :=
  [10, 254, 20, 2, 40, 4, 80, 6, 160, 8, 60, 10, 14, 12, 26, 14] ++
  [12, 16, 24, 18, 48, 20, 96, 22, 192, 24, 72, 26, 16, 28, 32, 30]

/-- The length a register byte loads: `LEN[v[7:3]]` (R518, R521, R524). -/
def lenOf (v : Byte) : Byte := BitVec.ofNat 8 (lenTable.getD (v.extractLsb' 3 5).toNat 0)

/-- `DUTY[duty][seq]` (R550). -/
def dutyTable (duty : BitVec 2) : List Bool :=
  match duty.toNat with
  | 0 => [false, true, false, false, false, false, false, false]
  | 1 => [false, true, true, false, false, false, false, false]
  | 2 => [false, true, true, true, true, false, false, false]
  | _ => [true, false, false, true, true, true, true, true]

/-- `TRI[seq]` (R552): 15 down to 0, then 0 up to 15. -/
def triLevel (seq : BitVec 5) : Nat := if seq.toNat < 16 then 15 - seq.toNat else seq.toNat - 16

/-- `NOISE_PERIOD` (R553). -/
def noisePeriods : Region → List Nat
  | .ntsc => [4, 8, 16, 32, 64, 96, 128, 160, 202, 254, 380, 508, 762, 1016, 2034, 4068]
  | .pal => [4, 8, 14, 30, 60, 88, 118, 148, 188, 236, 354, 472, 708, 944, 1890, 3778]

/-- `DMC_RATE` (R562). -/
def dmcRates : Region → List Nat
  | .ntsc => [428, 380, 340, 320, 286, 254, 226, 214, 190, 160, 142, 128, 106, 84, 72, 54]
  | .pal => [398, 354, 316, 298, 276, 236, 210, 198, 176, 148, 132, 118, 98, 78, 66, 50]

/-- `NOISE_PERIOD[period_idx]` in force. -/
def Noise.periodOf (rg : Region) (n : Noise) : Nat := (noisePeriods rg).getD n.periodIdx.toNat 0

/-- `DMC_RATE[rate_idx]` in force. -/
def Dmc.rateOf (rg : Region) (d : Dmc) : Nat := (dmcRates rg).getD d.rateIdx.toNat 0

/-! Shared units. -/

/-- The envelope on a quarter-frame clock (R536). -/
def Envelope.clock (e : Envelope) : Envelope :=
  if e.start then { e with start := false, decay := 15, div := e.vol }
  else if e.div = 0 then
    { e with
      div := e.vol
      decay := if e.decay ≠ 0 then e.decay - 1 else if e.halt then 15 else e.decay }
  else { e with div := e.div - 1 }

/-- The envelope output (R536). -/
def Envelope.output (e : Envelope) : Nat := if e.const then e.vol.toNat else e.decay.toNat

/-- A length counter on a half-frame clock (R535). -/
def clockLength (halt : Bool) (length : Byte) : Byte := if !halt && length ≠ 0 then length - 1 else length

/-- The sweep target (R537); `first` is pulse 1, which subtracts one more. -/
def Pulse.target (first : Bool) (p : Pulse) : Nat :=
  let period := p.period.toNat
  let delta := period >>> p.swShift.toNat
  if p.swNeg then period - delta - (if first then 1 else 0) else period + delta

/-- `muted` (R537). -/
def Pulse.muted (first : Bool) (p : Pulse) : Bool := p.period.toNat < 8 || 0x7FF < p.target first

/-- The sweep unit on a half-frame clock (R537). -/
def Pulse.sweep (first : Bool) (p : Pulse) : Pulse :=
  let period :=
    if p.swDiv = 0 && p.swEn && p.swShift ≠ 0 && !p.muted first then BitVec.ofNat 11 (p.target first) else p.period
  if p.swDiv = 0 || p.swReload then { p with period := period, swDiv := p.swPeriod, swReload := false }
  else { p with period := period, swDiv := p.swDiv - 1 }

/-- A pulse on a half-frame clock (R543). -/
def Pulse.half (first : Bool) (p : Pulse) : Pulse :=
  Pulse.sweep first { p with length := clockLength p.env.halt p.length }

/-- The triangle's linear counter on a quarter-frame clock (R552). -/
def Triangle.quarter (t : Triangle) : Triangle :=
  { t with
    lin := if t.linReload then t.linReloadVal else if t.lin ≠ 0 then t.lin - 1 else t.lin
    linReload := if t.control then t.linReload else false }

/-- The quarter-frame clock (R542). -/
def Apu.quarter (a : Apu) : Apu :=
  { a with
    pulse1 := { a.pulse1 with env := a.pulse1.env.clock }
    pulse2 := { a.pulse2 with env := a.pulse2.env.clock }
    noise := { a.noise with env := a.noise.env.clock }
    triangle := a.triangle.quarter }

/-- The half-frame clock (R543). -/
def Apu.half (a : Apu) : Apu :=
  { a with
    pulse1 := a.pulse1.half true
    pulse2 := a.pulse2.half false
    triangle := { a.triangle with length := clockLength a.triangle.control a.triangle.length }
    noise := { a.noise with length := clockLength a.noise.env.halt a.noise.length } }

/-! The frame counter. -/

/-- The quarter-frame instants of both modes (R541). -/
def fcQuarters : Region → Nat × Nat × Nat
  | .ntsc => (7457, 14913, 22371)
  | .pal => (8313, 16627, 24939)

/-- The last instant of the 4-step sequence, at which `fc` wraps (R541). -/
def fcWrap4 : Region → Nat
  | .ntsc => 29830
  | .pal => 33254

/-- The last instant of the 5-step sequence, at which `fc` wraps (R541). -/
def fcWrap5 : Region → Nat
  | .ntsc => 37282
  | .pal => 41566

/-- The action I (R541). -/
def Apu.raiseFrameIrq (a : Apu) : Apu := if a.fcInhibit then a else { a with frameIrq := true }

/-- The delayed reset after a 0x4017 write (R544). -/
def Apu.delayedReset (a : Apu) : Apu :=
  if a.fcResetDelay = 0 then a
  else
    let a := { a with fcResetDelay := a.fcResetDelay - 1 }
    if a.fcResetDelay = 0 then
      let a := { a with fc := 0 }
      if a.fcMode then a.quarter.half else a
    else a

/-- The frame-counter step (R540, R541). -/
def Apu.frameStep (rg : Region) (a : Apu) : Apu :=
  let a := { a with fc := a.fc + 1 }
  let q := fcQuarters rg
  if a.fc = q.1 || a.fc = q.2.2 then a.quarter
  else if a.fc = q.2.1 then a.quarter.half
  else if a.fcMode then
    if a.fc = fcWrap5 rg - 1 then a.quarter.half
    else if a.fc = fcWrap5 rg then { a with fc := 0 }
    else a
  else
    if a.fc = fcWrap4 rg - 2 then a.raiseFrameIrq
    else if a.fc = fcWrap4 rg - 1 then a.quarter.half.raiseFrameIrq
    else if a.fc = fcWrap4 rg then { a.raiseFrameIrq with fc := 0 }
    else a

/-! The channel timers. -/

/-- The pulse timer on a tick with `cyc` odd (R550). -/
def Pulse.tick (p : Pulse) : Pulse :=
  if p.timer = 0 then { p with timer := p.period, seq := p.seq + 1 } else { p with timer := p.timer - 1 }

/-- The triangle timer (R552). -/
def Triangle.tick (t : Triangle) : Triangle :=
  if t.timer = 0 then
    { t with timer := t.period, seq := if t.length ≠ 0 && t.lin ≠ 0 then t.seq + 1 else t.seq }
  else { t with timer := t.timer - 1 }

/-- One clock of the noise shift register (R554). -/
def lfsrStep (mode : Bool) (r : BitVec 15) : BitVec 15 :=
  let fb := r.getLsbD 0 ^^ (if mode then r.getLsbD 6 else r.getLsbD 1)
  (r >>> 1) ||| ((BitVec.ofBool fb).setWidth 15 <<< 14)

/-- The noise timer (R554). -/
def Noise.tick (rg : Region) (n : Noise) : Noise :=
  if n.timer = 0 then { n with timer := BitVec.ofNat 12 (n.periodOf rg - 1), lfsr := lfsrStep n.mode n.lfsr }
  else { n with timer := n.timer - 1 }

/-- The DMC output unit when clocked (R561). -/
def Dmc.output (d : Dmc) : Dmc :=
  let level :=
    if d.silence then d.level
    else if d.shift.getLsbD 0 then (if d.level.toNat ≤ 125 then d.level + 2 else d.level)
    else (if 2 ≤ d.level.toNat then d.level - 2 else d.level)
  let d := { d with level := level, shift := d.shift >>> 1, bits := d.bits - 1 }
  if d.bits = 0 then
    if d.bufferEmpty then { d with bits := 8, silence := true }
    else { d with bits := 8, silence := false, shift := d.buffer, bufferEmpty := true }
  else d

/-- The DMC timer (R561). -/
def Dmc.tick (rg : Region) (d : Dmc) : Dmc :=
  if d.timer = 0 then { d.output with timer := BitVec.ofNat 9 (d.rateOf rg - 1) } else { d with timer := d.timer - 1 }

/-- The sample's start address, `0xC000 + addr_reg * 64` (R527). -/
def Dmc.startAddr (d : Dmc) : Addr := 0xC000 + (d.addrReg.setWidth 16 <<< 6)

/-- The sample's length, `len_reg * 16 + 1` (R528). -/
def Dmc.sampleLength (d : Dmc) : BitVec 12 := (d.lenReg.setWidth 12 <<< 4) + 1

/-- Start the sample from its registers (R529, R566). -/
def Dmc.restart (d : Dmc) : Dmc := { d with curAddr := d.startAddr, remaining := d.sampleLength }

/-- The memory reader wants a byte (R566). -/
def Dmc.wantsByte (d : Dmc) : Bool := d.bufferEmpty && d.remaining ≠ 0

/-- The memory reader takes byte `b` (R566): the channel, and whether the DMC IRQ is raised. -/
def Dmc.take (b : Byte) (d : Dmc) : Dmc × Bool :=
  let d := { d with
    buffer := b
    bufferEmpty := false
    curAddr := if d.curAddr = 0xFFFF then 0x8000 else d.curAddr + 1
    remaining := d.remaining - 1 }
  if d.remaining = 0 then
    if d.loop then (d.restart, false) else (d, d.irqEn)
  else (d, false)

/-! Output levels, mixer, sampler. -/

/-- The pulse output level (R551). -/
def Pulse.level (first : Bool) (p : Pulse) : Nat :=
  if p.length = 0 || !((dutyTable p.duty).getD p.seq.toNat false) || p.muted first then 0 else p.env.output

/-- The noise output level (R554). -/
def Noise.level (n : Noise) : Nat := if n.lfsr.getLsbD 0 || n.length = 0 then 0 else n.env.output

/-- `MIX` (R571), over exact rationals: `pulse_out = 9588 n / t1` and `tnd_out = 15979 m / t2` with a common denominator
8227 * 12241 * 22638 inside `m`. -/
def mix (scale p1 p2 tr no dm : Nat) : Nat :=
  let n := p1 + p2
  let m := tr * (12241 * 22638) + no * (8227 * 22638) + dm * (8227 * 12241)
  let t1 := 100 * (8128 + 100 * n)
  let t2 := 100 * (8227 * 12241 * 22638 + 100 * m)
  scale * (9588 * n * t2 + 15979 * m * t1) / (t1 * t2)

/-- The mixed level now (R570, R571). -/
def Apu.mixed (scale : Nat) (a : Apu) : Nat :=
  mix scale (a.pulse1.level true) (a.pulse2.level false) (triLevel a.triangle.seq) a.noise.level a.dmc.level.toNat

/-- The sampler (R574). -/
def Apu.sample (rg : Region) (cfg : Params) (a : Apu) : Apu :=
  let acc := a.sampleAcc + cfg.sampleRate * rg.cpuDiv
  if rg.masterHz ≤ acc then
    { a with
      sampleAcc := acc - rg.masterHz
      audioWork := a.audioWork ++ [BitVec.ofNat 16 (a.mixed cfg.pcmScale)] }
  else { a with sampleAcc := acc }

/-- Steps (1) and (2) of `ApuTick` (R513): the delayed reset and the frame counter. -/
def Apu.tickFrame (rg : Region) (a : Apu) : Apu := a.delayedReset.frameStep rg

/-- Step (4) of `ApuTick` (R513): the timers; the pulses only when `cyc` is odd (R512). -/
def Apu.tickTimers (rg : Region) (cyc : Nat) (a : Apu) : Apu :=
  let a := { a with triangle := a.triangle.tick, noise := a.noise.tick rg, dmc := a.dmc.tick rg }
  if cyc % 2 = 1 then { a with pulse1 := a.pulse1.tick, pulse2 := a.pulse2.tick } else a

/-! Register writes and the status read. -/

/-- 0x4000 and 0x4004 (R515), 0x400C (R522): the envelope fields. -/
def Envelope.writeControl (v : Byte) (e : Envelope) : Envelope :=
  { e with halt := v.getLsbD 5, const := v.getLsbD 4, vol := v.extractLsb' 0 4 }

/-- The high three bits of an 11-bit period (R518, R521). -/
def periodHigh (p : BitVec 11) (v : Byte) : BitVec 11 := v.extractLsb' 0 3 ++ p.extractLsb' 0 8

/-- The low eight bits of an 11-bit period (R517, R520). -/
def periodLow (p : BitVec 11) (v : Byte) : BitVec 11 := p.extractLsb' 8 3 ++ v

/-- Register `n` of a pulse channel (R515 to R518). -/
def Pulse.write (n : Nat) (v : Byte) (p : Pulse) : Pulse :=
  match n with
  | 0 => { p with duty := v.extractLsb' 6 2, env := p.env.writeControl v }
  | 1 =>
    { p with
      swEn := v.getLsbD 7
      swPeriod := v.extractLsb' 4 3
      swNeg := v.getLsbD 3
      swShift := v.extractLsb' 0 3
      swReload := true }
  | 2 => { p with period := periodLow p.period v }
  | _ =>
    { p with
      period := periodHigh p.period v
      length := if p.enabled then lenOf v else p.length
      seq := 0
      env := { p.env with start := true } }

/-- Registers 0x4008, 0x400A and 0x400B (R519 to R521); 0x4009 is ignored (R514). -/
def Triangle.write (n : Nat) (v : Byte) (t : Triangle) : Triangle :=
  match n with
  | 0 => { t with control := v.getLsbD 7, linReloadVal := v.extractLsb' 0 7 }
  | 1 => t
  | 2 => { t with period := periodLow t.period v }
  | _ =>
    { t with
      period := periodHigh t.period v
      length := if t.enabled then lenOf v else t.length
      linReload := true }

/-- Registers 0x400C, 0x400E and 0x400F (R522 to R524); 0x400D is ignored (R514). -/
def Noise.write (n : Nat) (v : Byte) (c : Noise) : Noise :=
  match n with
  | 0 => { c with env := c.env.writeControl v }
  | 1 => c
  | 2 => { c with mode := v.getLsbD 7, periodIdx := v.extractLsb' 0 4 }
  | _ => { c with length := if c.enabled then lenOf v else c.length, env := { c.env with start := true } }

/-- Registers 0x4010 to 0x4013 (R525 to R528), the channel's part. -/
def Dmc.write (n : Nat) (v : Byte) (d : Dmc) : Dmc :=
  match n with
  | 0 => { d with irqEn := v.getLsbD 7, loop := v.getLsbD 6, rateIdx := v.extractLsb' 0 4 }
  | 1 => { d with level := v.extractLsb' 0 7 }
  | 2 => { d with addrReg := v }
  | _ => { d with lenReg := v }

/-- A length counter under an `enabled` bit: disabling forces it to 0 (R529). -/
def lengthIf (enabled : Bool) (length : Byte) : Byte := if enabled then length else 0

/-- The write of 0x4015 (R529). -/
def Apu.writeEnable (v : Byte) (a : Apu) : Apu :=
  { a with
    pulse1 := { a.pulse1 with enabled := v.getLsbD 0, length := lengthIf (v.getLsbD 0) a.pulse1.length }
    pulse2 := { a.pulse2 with enabled := v.getLsbD 1, length := lengthIf (v.getLsbD 1) a.pulse2.length }
    triangle := { a.triangle with enabled := v.getLsbD 2, length := lengthIf (v.getLsbD 2) a.triangle.length }
    noise := { a.noise with enabled := v.getLsbD 3, length := lengthIf (v.getLsbD 3) a.noise.length }
    dmc :=
      if !v.getLsbD 4 then { a.dmc with remaining := 0 }
      else if a.dmc.remaining = 0 then a.dmc.restart
      else a.dmc
    dmcIrq := false }

/-- The write of 0x4017 in the cycle numbered `cyc` (R531). -/
def Apu.writeFrame (v : Byte) (cyc : Nat) (a : Apu) : Apu :=
  { a with
    fcMode := v.getLsbD 7
    fcInhibit := v.getLsbD 6
    frameIrq := if v.getLsbD 6 then false else a.frameIrq
    fcResetDelay := if cyc % 2 = 1 then 3 else 4 }

/-- A CPU write of `v` to APU register `n` (0x4000 + n) in the cycle numbered `cyc`: the channel registers, 0x4015 and 0x4017
(R515 to R531; 0x4009 and 0x400D ignored, R514). 0x4014 and 0x4016 are not the APU's. -/
def Apu.write (n : Nat) (v : Byte) (cyc : Nat) (a : Apu) : Apu :=
  if n < 0x04 then { a with pulse1 := a.pulse1.write (n % 4) v }
  else if n < 0x08 then { a with pulse2 := a.pulse2.write (n % 4) v }
  else if n < 0x0C then { a with triangle := a.triangle.write (n % 4) v }
  else if n < 0x10 then { a with noise := a.noise.write (n % 4) v }
  else if n < 0x14 then
    { a with dmc := a.dmc.write (n % 4) v, dmcIrq := if n = 0x10 && !v.getLsbD 7 then false else a.dmcIrq }
  else if n = 0x15 then a.writeEnable v
  else if n = 0x17 then a.writeFrame v cyc
  else a

/-- The byte a read of 0x4015 returns (R530), `db` being the bus latch. -/
def Apu.status (db : Byte) (a : Apu) : Byte :=
  BitVec.ofBool a.dmcIrq ++ BitVec.ofBool a.frameIrq ++ db.extractLsb' 5 1 ++ BitVec.ofBool (a.dmc.remaining != 0)
    ++ BitVec.ofBool (a.noise.length != 0) ++ BitVec.ofBool (a.triangle.length != 0)
    ++ BitVec.ofBool (a.pulse2.length != 0) ++ BitVec.ofBool (a.pulse1.length != 0)

/-- The soft-reset values of the APU (R580): "as a write of 0x00 to 0x4015", `fc`, its delay and the IRQ flags cleared. -/
def Apu.softReset (a : Apu) : Apu :=
  { a.writeEnable 0 with fc := 0, fcResetDelay := 0, frameIrq := false, dmcIrq := false }

end Sys2Proof.Machine
end

