-- ==== Sys2Proof/Machine/Cartridge.lean ====
section
/-! DEFINITION. The cartridge: PRG and CHR mapping, PRG-RAM gating, mirroring, mapper registers, the MMC3 counter
(spec/61_bus_mapper.md). -/

namespace Sys2Proof.Machine

/-- `prg_size` (R374). -/
def Image.prgSize (im : Image) : Nat := im.prgCount * 0x4000

/-- `nb8`, the 8 KiB PRG banks (R383). -/
def Image.nb8 (im : Image) : Nat := im.prgCount * 2

/-- `chr_is_ram` (R374). -/
def Image.chrIsRam (im : Image) : Bool := im.chrCount == 0

/-- `chr_size` (R374). -/
def Image.chrSize (im : Image) : Nat := if im.chrIsRam then 8192 else im.chrCount * 8192

/-- MMC1's PRG mapping (R405). -/
def mmc1PrgOffset (im : Image) (r : Mmc1) (a : Nat) : Nat :=
  let p := (r.prg.extractLsb' 0 4).toNat
  let last := im.prgCount - 1
  let bank (b : Nat) : Nat := b * 0x4000 + a % 0x4000
  match (r.control.extractLsb' 2 2).toNat with
  | 2 => if a < 0xC000 then bank 0 else bank (p % im.prgCount)
  | 3 => if a < 0xC000 then bank (p % im.prgCount) else bank last
  | _ => (((r.prg &&& 0xE).toNat % im.prgCount) * 0x4000 + (a - 0x8000)) % im.prgSize

/-- MMC3's PRG bank for an 8 KiB slot (R413). -/
def mmc3PrgBank (im : Image) (r : Mmc3) (slot : Nat) : Nat :=
  let swapped := r.bankSelect.getLsbD 6
  match slot with
  | 0 => if swapped then im.nb8 - 2 else r.r[6].toNat
  | 1 => r.r[7].toNat
  | 2 => if swapped then r.r[6].toNat else im.nb8 - 2
  | _ => im.nb8 - 1

/-- `prg_offset(a)` for `a` in 0x8000 to 0xFFFF, the mapper's function (R380, R390, R393, R405, R413). -/
def prgOffset (im : Image) (m : Mapper) (a : Nat) : Nat :=
  match m with
  | .nrom => (a - 0x8000) % im.prgSize
  | .unrom bank =>
    if a < 0xC000 then (bank.toNat % im.prgCount) * 0x4000 + (a - 0x8000)
    else (im.prgCount - 1) * 0x4000 + (a - 0xC000)
  | .mmc1 r => mmc1PrgOffset im r a
  | .mmc3 r => (mmc3PrgBank im r ((a - 0x8000) / 0x2000) % im.nb8) * 0x2000 + a % 0x2000

/-- The PRG-ROM byte the CPU sees at `a` in 0x8000 to 0xFFFF (R380). -/
def prgByte (im : Image) (m : Mapper) (a : Nat) : Byte := im.prg.read (prgOffset im m a)

/-- The enable condition of PRG-RAM (R381, R404, R415). -/
def prgRamEnabled : Mapper → Bool
  | .nrom | .unrom _ => true
  | .mmc1 r => !r.prg.getLsbD 4
  | .mmc3 r => r.ramProtect.getLsbD 7

/-- PRG-RAM is enabled and not write-protected (R381, R404, R415). -/
def prgRamWritable : Mapper → Bool
  | .mmc3 r => r.ramProtect.getLsbD 7 && !r.ramProtect.getLsbD 6
  | m => prgRamEnabled m

/-- MMC3's CHR bank for a 1 KiB unit (R414). -/
def mmc3ChrBank (r : Mmc3) (k : Nat) : Nat :=
  match k with
  | 0 => (r.r[0] &&& 0xFE).toNat
  | 1 => (r.r[0] ||| 0x01).toNat
  | 2 => (r.r[1] &&& 0xFE).toNat
  | 3 => (r.r[1] ||| 0x01).toNat
  | 4 => r.r[2].toNat
  | 5 => r.r[3].toNat
  | 6 => r.r[4].toNat
  | _ => r.r[5].toNat

/-- `chr_offset(p)` for `p` in 0x0000 to 0x1FFF (R384, R405, R414). -/
def chrOffset (im : Image) (m : Mapper) (p : Nat) : Nat :=
  match m with
  | .nrom | .unrom _ => p % im.chrSize
  | .mmc1 r =>
    let nc4 := im.chrSize / 4096
    if r.control.getLsbD 4 then
      if p < 0x1000 then (r.chr0.toNat % nc4) * 0x1000 + p else (r.chr1.toNat % nc4) * 0x1000 + (p - 0x1000)
    else (((r.chr0 &&& 0x1E).toNat % nc4) * 0x1000 + p) % im.chrSize
  | .mmc3 r =>
    let k := p / 0x400
    let k := if r.bankSelect.getLsbD 7 then k ^^^ 4 else k
    (mmc3ChrBank r k % (im.chrSize / 1024)) * 0x400 + p % 0x400

/-- The mirroring mode in force when the cartridge is not four-screen (R385, R401, R416). -/
def mirroringNow (im : Image) : Mapper → Mirroring
  | .nrom | .unrom _ => im.mirroring
  | .mmc1 r =>
    match (r.control.extractLsb' 0 2).toNat with
    | 0 => .oneLower
    | 1 => .oneUpper
    | 2 => .vertical
    | _ => .horizontal
  | .mmc3 r => if r.mirror then .horizontal else .vertical

/-- The physical 1 KiB page of a logical nametable (R385). -/
def ntPage (im : Image) (m : Mapper) (t : Nat) : Nat :=
  if im.fourScreen then t
  else match mirroringNow im m with
    | .horizontal => t / 2
    | .vertical => t % 2
    | .oneLower => 0
    | .oneUpper => 1

/-- `nt_offset(p)` for `p` in 0x2000 to 0x3EFF (R385). -/
def ntOffset (im : Image) (m : Mapper) (p : Nat) : Nat :=
  let q := (p - 0x2000) % 0x1000
  ntPage im m (q / 0x400) * 0x400 + q % 0x400

/-- The byte at PPU address `p` below 0x3F00 (R384). -/
def cartPpuRead (s : State) (p : Nat) : Byte :=
  if p < 0x2000 then
    (if s.image.chrIsRam then s.chrRam else s.image.chrRom).read (chrOffset s.image s.mapper p)
  else s.ciram.read (ntOffset s.image s.mapper p)

/-- MMC1's serial write at CPU cycle `c` (R400). -/
def mmc1Write (a : Nat) (v : Byte) (c : Nat) (r : Mmc1) : Mmc1 :=
  if r.lastWriteCyc.any (fun l => l + 1 == c) then { r with lastWriteCyc := some c }
  else if v.getLsbD 7 then
    { r with lastWriteCyc := some c, sr := 0, srCount := 0, control := r.control ||| 0x0C }
  else
    let sr : BitVec 5 := (r.sr >>> 1) ||| ((v.extractLsb' 0 1).setWidth 5 <<< 4)
    if r.srCount + 1 = 5 then
      let r := { r with lastWriteCyc := some c, sr := 0, srCount := 0 }
      match (a / 0x2000) % 4 with
      | 0 => { r with control := sr }
      | 1 => { r with chr0 := sr }
      | 2 => { r with chr1 := sr }
      | _ => { r with prg := sr }
    else { r with lastWriteCyc := some c, sr := sr, srCount := r.srCount + 1 }

/-- MMC3's register writes, selected by `a & 0xE001` (R410 to R412, R415 to R417). -/
def mmc3Write (a : Nat) (v : Byte) (r : Mmc3) : Mmc3 :=
  match (a / 0x2000) % 4, a % 2 with
  | 0, 0 => { r with bankSelect := v }
  | 0, _ => { r with r := r.r.setIfInBounds (r.bankSelect.extractLsb' 0 3).toNat v }
  | 1, 0 => { r with mirror := v.getLsbD 0 }
  | 1, _ => { r with ramProtect := v }
  | 2, 0 => { r with irqLatch := v }
  | 2, _ => { r with irqCounter := 0, irqReload := true }
  | _, 0 => { r with irqEnabled := false, mapperIrq := false }
  | _, _ => { r with irqEnabled := true }

/-- A CPU write of `v` to `a` in 0x8000 to 0xFFFF at CPU cycle `c` (R391, R394, R395, R400, R411 to R417). -/
def mapperWrite (im : Image) (a : Nat) (v : Byte) (c : Nat) : Mapper → Mapper
  | .nrom => .nrom
  | .unrom bank => .unrom (v &&& prgByte im (.unrom bank) a)
  | .mmc1 r => .mmc1 (mmc1Write a v c r)
  | .mmc3 r => .mmc3 (mmc3Write a v r)

/-- The diagnostic of a CPU write to 0x8000 to 0xFFFF: UNROM's bus conflict (R394). -/
def mapperWriteDiag (im : Image) (a : Addr) (v : Byte) : Mapper → List Diagnostic
  | .unrom bank =>
    let r := prgByte im (.unrom bank) a.toNat
    if v = r then [] else [.busConflict a v r]
  | _ => []

/-- The MMC3 counter clock (R418). -/
def mmc3Clock (variant : Mmc3Variant) (r : Mmc3) : Mmc3 :=
  let counter := if r.irqCounter = 0 || r.irqReload then r.irqLatch else r.irqCounter - 1
  let fire : Bool :=
    match variant with
    | .sharp => counter == 0
    | .nec => counter == 0 && (0 < r.irqCounter.toNat || r.irqReload)
  { r with irqCounter := counter, irqReload := false, mapperIrq := r.mapperIrq || (fire && r.irqEnabled) }

/-- `MapperDot(abus)` (R420): the A12 filter. -/
def mapperDot (variant : Mmc3Variant) (abus : BitVec 14) : Mapper → Mapper
  | .mmc3 r =>
    if abus.getLsbD 12 then
      let r := if 10 ≤ r.a12Low then mmc3Clock variant r else r
      .mmc3 { r with a12Low := 0 }
    else .mmc3 { r with a12Low := min (r.a12Low + 1) 255 }
  | m => m

/-- `mapper_irq`, constantly 0 but on MMC3 (R419). -/
def Mapper.irq : Mapper → Bool
  | .mmc3 r => r.mapperIrq
  | _ => false

end Sys2Proof.Machine
end

