-- ==== Sys2Proof/Machine/Ppu.lean ====
section
/-! DEFINITION. The PPU: its registers, the scroll logic, one dot of the scanline sequencer with the background and sprite
pipelines, pixel output and publication (spec/62_ppu.md). -/

namespace Sys2Proof.Machine

/-! Derived predicates and the scroll registers. -/

/-- `rendering_enabled` (R432). -/
def Ppu.renderingEnabled (p : Ppu) : Bool := p.mask.getLsbD 3 || p.mask.getLsbD 4

/-- `render_line` (R432). -/
def Ppu.renderLine (rg : Region) (p : Ppu) : Bool := p.scanline ≤ 239 || p.scanline == rg.preLine

/-- `rendering_now` (R432). -/
def Ppu.renderingNow (rg : Region) (p : Ppu) : Bool := p.renderingEnabled && p.renderLine rg

/-- `nmi_request` (R458). -/
def Ppu.nmiRequest (p : Ppu) : Bool := p.vblankFlag && p.ctrl.getLsbD 7

/-- Sprite height `H` (R482). -/
def Ppu.spriteHeight (p : Ppu) : Nat := if p.ctrl.getLsbD 5 then 16 else 8

/-- Replace bits `lo + n - 1 .. lo` of a scroll register by `f` (R443). -/
def setField {n : Nat} (v : BitVec 15) (lo : Nat) (f : BitVec n) : BitVec 15 :=
  (v &&& ~~~((BitVec.allOnes n).setWidth 15 <<< lo)) ||| (f.setWidth 15 <<< lo)

/-- Coarse X, bits 4:0 (R443). -/
def coarseX (v : BitVec 15) : BitVec 5 := v.extractLsb' 0 5

/-- Coarse Y, bits 9:5 (R443). -/
def coarseY (v : BitVec 15) : BitVec 5 := v.extractLsb' 5 5

/-- Fine Y, bits 14:12 (R443). -/
def fineY (v : BitVec 15) : BitVec 3 := v.extractLsb' 12 3

/-- `coarse_x_inc()` (R444). -/
def coarseXInc (v : BitVec 15) : BitVec 15 :=
  if coarseX v = 31 then setField v 0 (0 : BitVec 5) ^^^ 0x0400 else setField v 0 (coarseX v + 1)

/-- `y_inc()` (R444). -/
def yInc (v : BitVec 15) : BitVec 15 :=
  if fineY v ≠ 7 then setField v 12 (fineY v + 1)
  else
    let v := setField v 12 (0 : BitVec 3)
    if coarseY v = 29 then setField v 5 (0 : BitVec 5) ^^^ 0x0800
    else if coarseY v = 31 then setField v 5 (0 : BitVec 5)
    else setField v 5 (coarseY v + 1)

/-- The horizontal reload of dot 257 (R456): `v[4:0] <- t[4:0]; v[10] <- t[10]`. -/
def reloadX (v t : BitVec 15) : BitVec 15 := (v &&& ~~~0x041F) ||| (t &&& 0x041F)

/-- The vertical reload of dots 280 to 304 (R456): `v[9:5]`, `v[11]` and `v[14:12]` from `t`. -/
def reloadY (v t : BitVec 15) : BitVec 15 := (v &&& ~~~0x7BE0) ||| (t &&& 0x7BE0)

/-- `pal_index(a)` (R446). -/
def palIndex (a : Nat) : Nat :=
  let i := a % 32
  if i = 0x10 || i = 0x14 || i = 0x18 || i = 0x1C then i - 0x10 else i

/-- The colour mask of the greyscale bit (R436). -/
def greyMask (mask : Byte) : BitVec 6 := if mask.getLsbD 0 then 0x30 else 0x3F

/-- `PpuRead(a)` (R445): below 0x3F00 the cartridge, else palette RAM. -/
def ppuRead (s : State) (p : Ppu) (a : Nat) : Byte :=
  if a < 0x3F00 then cartPpuRead s a else (p.pal.read (palIndex a)).setWidth 8

/-! The CPU-visible registers. -/

/-- `bump()` (R442). -/
def Ppu.bump (rg : Region) (p : Ppu) : Ppu :=
  if p.renderingNow rg then { p with v := yInc (coarseXInc p.v) }
  else { p with v := p.v + (if p.ctrl.getLsbD 2 then 32 else 1) }

/-- The read of PPUSTATUS (R437, R459). -/
def ppuReadStatus (p : Ppu) : Byte × Ppu :=
  let flags : BitVec 3 := BitVec.ofBool p.vblankFlag ++ BitVec.ofBool p.sprite0Hit ++ BitVec.ofBool p.spriteOverflow
  let result : Byte := flags ++ p.ioLatch.extractLsb' 0 5
  (result,
    { p with
      vblSuppress := p.vblSuppress || (p.scanline == 241 && p.dot == 1)
      vblankFlag := false
      w := false
      ioLatch := result })

/-- The read of OAMDATA (R439). -/
def ppuReadOam (rg : Region) (p : Ppu) : Byte × Ppu :=
  let r :=
    if p.renderingNow rg && p.scanline ≤ 239 && 1 ≤ p.dot && p.dot ≤ 64 then 0xFF else p.oam.read p.oamaddr.toNat
  (r, { p with ioLatch := r })

/-- The read of PPUDATA (R442). -/
def ppuReadData (s : State) : Byte × Ppu :=
  let p := s.ppu
  let a := p.v.toNat % 0x4000
  let r : Byte :=
    if a < 0x3F00 then p.readBuffer
    else (p.pal.read (palIndex a) &&& greyMask p.mask).setWidth 8 ||| (p.ioLatch &&& 0xC0)
  let buffer := if a < 0x3F00 then ppuRead s p a else ppuRead s p (a - 0x1000)
  (r, { Ppu.bump s.image.region { p with readBuffer := buffer } with ioLatch := r })

/-- A CPU read of PPU register `n` (R434, R437, R439, R442). -/
def ppuRegRead (n : Nat) (s : State) : Byte × Ppu :=
  match n with
  | 2 => ppuReadStatus s.ppu
  | 4 => ppuReadOam s.image.region s.ppu
  | 7 => ppuReadData s
  | _ => (s.ppu.ioLatch, s.ppu)

/-- The write of OAMDATA (R439). -/
def ppuWriteOam (rg : Region) (v : Byte) (p : Ppu) : Ppu :=
  if p.renderingNow rg then { p with oamaddr := p.oamaddr + 4 }
  else
    let v := if p.oamaddr.toNat % 4 = 2 then v &&& 0xE3 else v
    { p with oam := p.oam.write p.oamaddr.toNat v, oamaddr := p.oamaddr + 1 }

/-- The write of PPUSCROLL (R440). -/
def ppuWriteScroll (v : Byte) (p : Ppu) : Ppu :=
  if p.w then
    { p with t := setField (setField p.t 12 (v.extractLsb' 0 3)) 5 (v.extractLsb' 3 5), w := false }
  else { p with t := setField p.t 0 (v.extractLsb' 3 5), x := v.extractLsb' 0 3, w := true }

/-- The write of PPUADDR (R441). -/
def ppuWriteAddr (v : Byte) (p : Ppu) : Ppu :=
  if p.w then
    let t := setField p.t 0 v
    { p with t := t, v := t, w := false }
  else { p with t := setField (setField p.t 8 (v.extractLsb' 0 6)) 14 (0 : BitVec 1), w := true }

/-- A CPU write of `v` to PPU register `n`, apart from the memory PPUDATA stores to (R434 to R436, R438 to R442). -/
def ppuRegWrite (rg : Region) (n : Nat) (v : Byte) (p : Ppu) : Ppu :=
  let p := { p with ioLatch := v }
  match n with
  | 0 => { p with ctrl := v, t := setField p.t 10 (v.extractLsb' 0 2) }
  | 1 => { p with mask := v }
  | 3 => { p with oamaddr := v }
  | 4 => ppuWriteOam rg v p
  | 5 => ppuWriteScroll v p
  | 6 => ppuWriteAddr v p
  | 7 =>
    let a := p.v.toNat % 0x4000
    let p := if a < 0x3F00 then p else { p with pal := p.pal.write (palIndex a) (v.extractLsb' 0 6) }
    p.bump rg
  | _ => p

/-- CHR-RAM after a CPU write of `v` to PPU register `n` (R384, R442, R445). -/
def chrRamAfter (n : Nat) (v : Byte) (s : State) : Mem 8 :=
  let a := s.ppu.v.toNat % 0x4000
  if n = 7 && a < 0x2000 && s.image.chrIsRam then s.chrRam.write (chrOffset s.image s.mapper a) v else s.chrRam

/-- Nametable RAM after a CPU write of `v` to PPU register `n` (R384, R442, R445). -/
def ciramAfter (n : Nat) (v : Byte) (s : State) : Mem 8 :=
  let a := s.ppu.v.toNat % 0x4000
  if n = 7 && 0x2000 ≤ a && a < 0x3F00 then s.ciram.write (ntOffset s.image s.mapper a) v else s.ciram

/-! The sprite pipeline. -/

/-- The sprite evaluation loop (R482) over sprites `n, n+1, …` (`k` of them) for line `line`. -/
def evalSprites (line : Nat) : Nat → Nat → Ppu → Ppu
  | 0, _, p => p
  | k + 1, n, p =>
    let y := (p.oam.read (4 * n)).toNat
    let p' :=
      if y ≤ line && line - y < p.spriteHeight then
        if p.soamCount < 8 then
          let at' (j : Nat) : Byte := p.oam.read (4 * n + j)
          let c := 4 * p.soamCount
          { p with
            soam := (((p.soam.setIfInBounds c (at' 0)).setIfInBounds (c + 1) (at' 1)).setIfInBounds (c + 2)
              (at' 2)).setIfInBounds (c + 3) (at' 3)
            spr0Next := p.spr0Next || n == 0
            soamCount := p.soamCount + 1 }
        else { p with spriteOverflow := true }
      else p
    evalSprites line k (n + 1) p'

/-- Byte `j` of the secondary-OAM entry of slot `i`. -/
def Ppu.soamByte (p : Ppu) (i j : Nat) : Byte := p.soam.getD (4 * i + j) 0xFF

/-- Slot `i` holds a real sprite on line `line` (R484, R485). -/
def Ppu.slotUsed (line i : Nat) (p : Ppu) : Bool := i < p.soamCount && line ≤ 239

/-- `spr_addr(i)` (R485) over the integers; the 14-bit bus takes it modulo 2^14 (log 9). -/
def Ppu.sprAddr (line i : Nat) (p : Ppu) : Int :=
  let used := p.slotUsed line i
  let tile : Byte := if used then p.soamByte i 1 else 0xFF
  let row : Int :=
    if used then
      let row : Int := (line : Int) - (p.soamByte i 0).toNat
      if (p.soamByte i 2).getLsbD 7 then (p.spriteHeight : Int) - 1 - row else row
    else 0
  if p.ctrl.getLsbD 5 then
    (if tile.getLsbD 0 then 0x1000 else 0)
      + (((tile &&& 0xFE).toNat : Int) + (if 8 ≤ row then 1 else 0)) * 16 + row % 8
  else (if p.ctrl.getLsbD 3 then 0x1000 else 0) + (tile.toNat : Int) * 16 + row

/-- The nametable address of the current tile (R471, R474, R484). -/
def Ppu.ntAddr (p : Ppu) : BitVec 14 := 0x2000 ||| (p.v &&& 0x0FFF).setWidth 14

/-- A byte with its bits in the opposite order (R486). -/
def reverseByte (b : Byte) : Byte := b.reverse

/-- `unit[i]` after phase 7 (R486), `hi` being the pattern high byte. When rendering was switched on after phase 5 of the slot, the
rule gives `lo` no value: the latch still holds that of an earlier slot, or its reset value (log 9: DESIGN CHOICE). -/
def Ppu.loadUnit (line i : Nat) (hi : Byte) (p : Ppu) : SpriteUnit :=
  let old := p.units.getD i SpriteUnit.empty
  if p.slotUsed line i then
    let attr := p.soamByte i 2
    let flip (b : Byte) : Byte := if attr.getLsbD 6 then reverseByte b else b
    { patLo := flip p.sprLo, patHi := flip hi, attr := attr, xpos := p.soamByte i 3, isS0 := i == 0 && p.spr0Next }
  else { old with patLo := 0, patHi := 0, isS0 := false }

/-- The sprite fetch of dot `d` in 257 to 320 (R484), with `oamaddr <- 0` (R489). -/
def spriteFetch (rd : BitVec 14 → Byte) (line d : Nat) (p : Ppu) : Ppu :=
  let i := (d - 257) / 8
  let p := { p with oamaddr := 0 }
  match (d - 257) % 8 with
  | 0 | 2 => { p with abus := p.ntAddr }
  | 4 => { p with abus := BitVec.ofInt 14 (p.sprAddr line i) }
  | 5 => { p with sprLo := rd p.abus }
  | 6 => { p with abus := BitVec.ofInt 14 (p.sprAddr line i + 8) }
  | 7 => { p with units := p.units.setIfInBounds i (p.loadUnit line i (rd p.abus)) }
  | _ => p

/-- The sprite pipeline at `(line, d)` (R480 to R489), run only while `rendering_now`. -/
def spriteDot (rd : BitVec 14 → Byte) (line d : Nat) (p : Ppu) : Ppu :=
  if line ≤ 239 && d = 1 then { p with soam := Vector.replicate 32 0xFF, soamCount := 0, spr0Next := false }
  else if line ≤ 239 && d = 65 then evalSprites line 64 0 p
  else if 257 ≤ d && d ≤ 320 then spriteFetch rd line d p
  else p

/-! Pixel output. -/

/-- `bgp` and `bgpal` at column `px` (R473). -/
def Ppu.bgPixel (px : Nat) (p : Ppu) : Nat × Nat :=
  let k := 15 - p.x.toNat
  let bit (r : BitVec 16) : Nat := (r.getLsbD k).toNat
  let shown := p.mask.getLsbD 3 && !(px < 8 && !p.mask.getLsbD 1)
  (if shown then 2 * bit p.bgHi + bit p.bgLo else 0, 2 * bit p.atHi + bit p.atLo)

/-- The pattern value of a sprite unit at column `px` (R487), 0 outside its eight columns. -/
def SpriteUnit.pixel (px : Nat) (u : SpriteUnit) : Nat :=
  if u.xpos.toNat ≤ px && px - u.xpos.toNat ≤ 7 then
    let k := 7 - (px - u.xpos.toNat)
    2 * (u.patHi.getLsbD k).toNat + (u.patLo.getLsbD k).toNat
  else 0

/-- The first sprite unit that is opaque at column `px`, if sprites are shown there (R487). -/
def Ppu.spritePixel (px : Nat) (p : Ppu) : Option SpriteUnit :=
  if p.mask.getLsbD 4 && !(px < 8 && !p.mask.getLsbD 2) then
    p.units.toList.find? (fun u => u.pixel px != 0)
  else none

/-- The palette index the priority multiplexer selects (R495). -/
def Ppu.muxIndex (px : Nat) (p : Ppu) : Nat :=
  let bg := p.bgPixel px
  if !p.renderingEnabled then 0
  else match p.spritePixel px with
    | none => if bg.1 = 0 then 0 else bg.2 * 4 + bg.1
    | some u =>
      let spr := 0x10 + (u.attr.extractLsb' 0 2).toNat * 4 + u.pixel px
      if bg.1 = 0 || !u.attr.getLsbD 5 then spr else bg.2 * 4 + bg.1

/-- The pixel `(colour, mask[7:5])` (R495, R496), emphasis above colour. -/
def Ppu.pixelValue (px : Nat) (p : Ppu) : BitVec 9 :=
  let colour : BitVec 6 := p.pal.read (palIndex (p.muxIndex px)) &&& greyMask p.mask
  let emphasis : BitVec 3 := p.mask.extractLsb' 5 3
  emphasis ++ colour

/-- Whether the sprite-0 hit occurs at column `px` (R488). -/
def Ppu.hitsSprite0 (px : Nat) (p : Ppu) : Bool :=
  (p.bgPixel px).1 != 0 && (p.spritePixel px).any (·.isS0) && px != 255

/-- Pixel output at a visible dot (R488, R495 to R498). -/
def pixelDot (line px : Nat) (p : Ppu) : Ppu :=
  { p with
    sprite0Hit := p.sprite0Hit || p.hitsSprite0 px
    fbWork := if p.wantVideo then p.fbWork.write (256 * line + px) (p.pixelValue px) else p.fbWork }

/-! The background pipeline. -/

/-- The low byte of a shift register replaced (R472). -/
def reloadLow (r : BitVec 16) (b : Byte) : BitVec 16 := (r.extractLsb' 8 8 : Byte) ++ b

/-- The attribute address (R471, phase 2). -/
def Ppu.attrAddr (p : Ppu) : BitVec 14 :=
  0x23C0 ||| (p.v &&& 0x0C00).setWidth 14 ||| ((p.v >>> 4) &&& 0x38).setWidth 14 ||| ((p.v >>> 2) &&& 0x07).setWidth 14

/-- Which two bits of the attribute byte belong to the tile (R471, phase 3): `((v >> 4) & 4) | (v & 2)`. -/
def Ppu.attrShift (p : Ppu) : Nat := (if p.v.getLsbD 6 then 4 else 0) + (if p.v.getLsbD 1 then 2 else 0)

/-- The pattern address of the fetched tile, low plane (R471, phase 4). -/
def Ppu.patAddr (p : Ppu) : BitVec 14 :=
  BitVec.ofNat 14 ((if p.ctrl.getLsbD 4 then 0x1000 else 0) + p.ntByte.toNat * 16 + (fineY p.v).toNat)

/-- The background work of a fetch dot (R471, R472, and the `y_inc()` of dot 256, R456). -/
def bgFetch (rd : BitVec 14 → Byte) (d : Nat) (p : Ppu) : Ppu :=
  let p := { p with bgLo := p.bgLo <<< 1, bgHi := p.bgHi <<< 1, atLo := p.atLo <<< 1, atHi := p.atHi <<< 1 }
  match (d - 1) % 8 with
  | 0 => { p with abus := p.ntAddr }
  | 1 => { p with ntByte := rd p.abus }
  | 2 => { p with abus := p.attrAddr }
  | 3 =>
    { p with atBits := (rd p.abus >>> p.attrShift).extractLsb' 0 2 }
  | 4 => { p with abus := p.patAddr }
  | 5 => { p with ptLo := rd p.abus }
  | 6 => { p with abus := p.patAddr + 8 }
  | _ =>
    let hi := rd p.abus
    let fill (b : Bool) : Byte := if b then 0xFF else 0x00
    let v := coarseXInc p.v
    { p with
      ptHi := hi
      bgLo := reloadLow p.bgLo p.ptLo
      bgHi := reloadLow p.bgHi hi
      atLo := reloadLow p.atLo (fill (p.atBits.getLsbD 0))
      atHi := reloadLow p.atHi (fill (p.atBits.getLsbD 1))
      v := if d = 256 then yInc v else v }

/-- The background pipeline at `(line, d)` (R470 to R475, R456), run only while `rendering_now`. The bytes read at dots 338
and 340 are discarded (R474). -/
def bgDot (rd : BitVec 14 → Byte) (rg : Region) (line d : Nat) (p : Ppu) : Ppu :=
  if (1 ≤ d && d ≤ 256) || (321 ≤ d && d ≤ 336) then bgFetch rd d p
  else if d = 257 then { p with v := reloadX p.v p.t }
  else if line = rg.preLine && 280 ≤ d && d ≤ 304 then { p with v := reloadY p.v p.t }
  else if d = 337 || d = 339 then { p with abus := p.ntAddr }
  else p

/-! The dot. -/

/-- The counters at the end of a dot (R451). -/
def advanceDot (rg : Region) (p : Ppu) : Ppu :=
  let skip := p.scanline == rg.preLine && p.dot == 339 && rg.oddSkip && p.oddFrame && p.renderingEnabled
  if p.dot = 340 || skip then
    if p.scanline = rg.preLine then
      { p with dot := 0, scanline := 0, oddFrame := !p.oddFrame, frameCount := p.frameCount + 1 }
    else { p with dot := 0, scanline := p.scanline + 1 }
  else { p with dot := p.dot + 1 }

/-- The flag events of a dot: publication (R499), vblank (R457) and the pre-render clear (R455). -/
def flagDot (rg : Region) (line d : Nat) (p : Ppu) : Ppu :=
  let p := if line = 240 && d = 0 && p.wantVideo then { p with fb := some (rg, p.fbWork) } else p
  let p := if line = 241 && d = 1 then { p with vblankFlag := p.vblankFlag || !p.vblSuppress, vblSuppress := false } else p
  if line = rg.preLine && d = 1 then { p with vblankFlag := false, sprite0Hit := false, spriteOverflow := false } else p

/-- `PpuDot()` without its steps 8 and 9 (R453). -/
def ppuDotWork (s : State) : Ppu :=
  let p := s.ppu
  let rg := s.image.region
  let line := p.scanline
  let d := p.dot
  let rendering := p.renderingNow rg
  let rd (a : BitVec 14) : Byte := ppuRead s p a.toNat
  let p := if rendering then p else { p with abus := p.v.setWidth 14 }
  let p := if rendering then spriteDot rd line d p else p
  let p := if line ≤ 239 && 1 ≤ d && d ≤ 256 then pixelDot line (d - 1) p else p
  let p := if rendering then bgDot rd rg line d p else p
  flagDot rg line d p

/-- `PpuDot()` (R453): the PPU after the dot and the mapper after `MapperDot`. -/
def ppuDot (s : State) : Ppu × Mapper :=
  let p := ppuDotWork s
  (advanceDot s.image.region p, mapperDot s.cfg.mmc3Variant p.abus s.mapper)

/-- One dot of the machine: `PpuDot()`, then `audio_mark` when a frame was completed (spec/64_orchestrator.md R599, R602). -/
def runDot (s : State) : State :=
  let r := ppuDot s
  { s with
    ppu := r.1
    mapper := r.2
    audioMark := if r.1.frameCount = s.ppu.frameCount then s.audioMark else s.apu.audioWork.length }

/-- `n` dots. -/
def runDots : Nat → State → State
  | 0, s => s
  | n + 1, s => runDots n (runDot s)

/-- The colour of a published pixel: `fb[L][px]` (R497, R499), 0 before the first publication. -/
def fbPixel (p : Ppu) (line px : Nat) : BitVec 32 :=
  match p.fb with
  | none => 0
  | some (rg, img) =>
    let v := img.read (256 * line + px)
    Config.paletteRgba rg (v.extractLsb' 0 6) (v.extractLsb' 6 3)

/-- The four bytes of an RGBA8 pixel, in the order R, G, B, A of its name, R being the high byte of the 32 bits (log 30: DESIGN
CHOICE). -/
def rgbaBytes (c : BitVec 32) : List Byte :=
  [c.extractLsb' 24 8, c.extractLsb' 16 8, c.extractLsb' 8 8, c.extractLsb' 0 8]

/-- The bytes of the published pixels `px, px + 1, …` of row `line`, `n` of them. -/
def fbRow (p : Ppu) (line : Nat) : Nat → Nat → List Byte
  | 0, _ => []
  | n + 1, px => rgbaBytes (fbPixel p line px) ++ fbRow p line n (px + 1)

/-- The bytes of the published rows `line, line + 1, …`, `n` of them, 256 pixels each. -/
def fbRows (p : Ppu) : Nat → Nat → List Byte
  | 0, _ => []
  | n + 1, line => fbRow p line 256 0 ++ fbRows p n (line + 1)

/-- `fb` as it leaves the machine (spec/64_orchestrator.md R618): 240 rows of 256 RGBA8 pixels, pitch 1024 bytes. -/
def frameBuffer (p : Ppu) : List Byte := fbRows p 240 0

end Sys2Proof.Machine
end

