-- ==== Sys2Proof/Machine/Bus.lean ====
section
/-! DEFINITION. The CPU bus: the routing of an access, its effects on the device addressed, and the clock schedule of one CPU
cycle with the stall hook and the OAM DMA engine (spec/20_memory.md R74 to R83, R96; spec/10_state.md R48 to R53;
spec/64_orchestrator.md R599, R607 to R609; spec/63_apu.md R513, R566). No bus operation reads or writes a CPU register. -/

namespace Sys2Proof.Machine

/-! The input ports. -/

/-- The latched pad `i` (spec/64_orchestrator.md R606). -/
def InputSnapshot.pad (p : InputSnapshot) : Nat → Byte
  | 0 => p.pad0
  | 1 => p.pad1
  | _ => p.pad2

/-- `sh[i]` (R607). -/
def Input.sh (p : Input) : Nat → Byte
  | 0 => p.sh0
  | 1 => p.sh1
  | _ => p.sh2

/-- `bit0_of(i)`, the bit returned (R608). -/
def Input.bit0 (p : Input) (i : Nat) : Bool := if p.strobe then (p.latched.pad i).getLsbD 0 else (p.sh i).getLsbD 0

/-- `bit0_of(i)`, the shift register afterwards (R608). -/
def Input.shiftReg (p : Input) (i : Nat) : Byte := if p.strobe then p.sh i else (p.sh i >>> 1) ||| 0x80

/-- `gun_dark` (R609). -/
def gunDark (p : Ppu) (g : InputSnapshot) : Bool :=
  let line : Int := p.scanline
  let c := ((p.fbWork.read (256 * g.gunY.toNat + g.gunX.toNat)).extractLsb' 0 6).toNat
  !(decide (0 ≤ g.gunX) && decide (g.gunX < 256) && decide (0 ≤ g.gunY) && decide (g.gunY < 240)
    && decide (g.gunY ≤ line) && decide (line ≤ min (g.gunY + 25) 239) && decide (0x20 ≤ c) && decide (c % 16 < 0x0E))

/-- The byte a read of 0x4016 returns (R608). -/
def port0Value (s : State) : Byte :=
  let b1 := s.cfg.pad3 == .port0Bit1 && s.input.bit0 2
  s.bus.db.extractLsb' 5 3 ++ (0 : BitVec 3) ++ BitVec.ofBool b1 ++ BitVec.ofBool (s.input.bit0 0)

/-- The byte a read of 0x4017 returns (R609). -/
def port1Value (s : State) : Byte :=
  s.bus.db.extractLsb' 5 3 ++ BitVec.ofBool s.input.latched.gunTrigger
    ++ BitVec.ofBool (gunDark s.ppu s.input.latched) ++ (0 : BitVec 2) ++ BitVec.ofBool (s.input.bit0 1)

/-! A read: the byte returned and the effects on the devices. -/

/-- The byte a read at `a` returns (spec/20_memory.md R74 to R83). -/
def busValue (a : Addr) (s : State) : Byte :=
  let n := a.toNat
  if n < 0x2000 then s.ram.read (n % 2048)
  else if n < 0x4000 then (ppuRegRead (n % 8) s).1
  else if n = 0x4015 then s.apu.status s.bus.db
  else if n = 0x4016 then port0Value s
  else if n = 0x4017 then port1Value s
  else if n < 0x6000 then s.bus.db
  else if n < 0x8000 then (if prgRamEnabled s.mapper then s.prgRam.read (n - 0x6000) else s.bus.db)
  else prgByte s.image s.mapper n

/-- The PPU after a read at `a` (R77). -/
def ppuAfterRead (a : Addr) (s : State) : Ppu :=
  if 0x2000 ≤ a.toNat && a.toNat < 0x4000 then (ppuRegRead (a.toNat % 8) s).2 else s.ppu

/-- The APU after a read at `a`: 0x4015 clears the frame IRQ flag (spec/63_apu.md R530). -/
def apuAfterRead (a : Addr) (s : State) : Apu :=
  if a.toNat = 0x4015 then { s.apu with frameIrq := false } else s.apu

/-- The input ports after a read at `a` (spec/64_orchestrator.md R608, R609). -/
def inputAfterRead (a : Addr) (s : State) : Input :=
  if a.toNat = 0x4016 then
    { s.input with
      sh0 := s.input.shiftReg 0
      sh2 := if s.cfg.pad3 == .port0Bit1 then s.input.shiftReg 2 else s.input.sh2 }
  else if a.toNat = 0x4017 then { s.input with sh1 := s.input.shiftReg 1 }
  else s.input

/-- A read at `a`, its effects on the devices and on `DB` (R48), with no time passing: `BusRead` of spec/63_apu.md R566. -/
def busRead (a : Addr) (s : State) : Byte × State :=
  let b := busValue a s
  (b, { s with
    ppu := ppuAfterRead a s
    apu := apuAfterRead a s
    input := inputAfterRead a s
    bus := { s.bus with db := b } })

/-! A write: the effects on the devices. -/

/-- Work RAM after a write (spec/20_memory.md R76). -/
def ramAfterWrite (a : Addr) (v : Byte) (s : State) : Mem 8 :=
  if a.toNat < 0x2000 then s.ram.write (a.toNat % 2048) v else s.ram

/-- The PPU after a write (R77). -/
def ppuAfterWrite (a : Addr) (v : Byte) (s : State) : Ppu :=
  if 0x2000 ≤ a.toNat && a.toNat < 0x4000 then ppuRegWrite s.image.region (a.toNat % 8) v s.ppu else s.ppu

/-- CHR-RAM after a write (spec/62_ppu.md R442, R445; spec/61_bus_mapper.md R384). -/
def chrRamAfterWrite (a : Addr) (v : Byte) (s : State) : Mem 8 :=
  if 0x2000 ≤ a.toNat && a.toNat < 0x4000 then chrRamAfter (a.toNat % 8) v s else s.chrRam

/-- Nametable RAM after a write (R384). -/
def ciramAfterWrite (a : Addr) (v : Byte) (s : State) : Mem 8 :=
  if 0x2000 ≤ a.toNat && a.toNat < 0x4000 then ciramAfter (a.toNat % 8) v s else s.ciram

/-- The APU after a write in the cycle numbered `cyc` (spec/20_memory.md R78). -/
def apuAfterWrite (a : Addr) (v : Byte) (s : State) : Apu :=
  if 0x4000 ≤ a.toNat && a.toNat < 0x4018 then s.apu.write (a.toNat - 0x4000) v s.bus.cyc else s.apu

/-- The input ports after a write: 0x4016 is the strobe (spec/64_orchestrator.md R607). While the strobe is 1 the shift
registers follow the latched pads: they are stored when the strobe is written or the pads are latched (log 16). -/
def inputAfterWrite (a : Addr) (v : Byte) (s : State) : Input :=
  if a.toNat = 0x4016 then
    let follow := s.input.strobe || v.getLsbD 0
    { s.input with
      strobe := v.getLsbD 0
      sh0 := if follow then s.input.latched.pad0 else s.input.sh0
      sh1 := if follow then s.input.latched.pad1 else s.input.sh1
      sh2 := if follow then s.input.latched.pad2 else s.input.sh2 }
  else s.input

/-- PRG-RAM after a write (spec/61_bus_mapper.md R381). -/
def prgRamAfterWrite (a : Addr) (v : Byte) (s : State) : Mem 8 :=
  if 0x6000 ≤ a.toNat && a.toNat < 0x8000 && prgRamWritable s.mapper then s.prgRam.write (a.toNat - 0x6000) v
  else s.prgRam

/-- The mapper's registers after a write in the cycle numbered `cyc` (R380). -/
def mapperAfterWrite (a : Addr) (v : Byte) (s : State) : Mapper :=
  if 0x8000 ≤ a.toNat then mapperWrite s.image a.toNat v s.bus.cyc s.mapper else s.mapper

/-- The diagnostic stream after a write (R394). -/
def diagAfterWrite (a : Addr) (v : Byte) (s : State) : List Diagnostic :=
  if 0x8000 ≤ a.toNat then s.diag ++ mapperWriteDiag s.image a v s.mapper else s.diag

/-- The CPU's hidden state after a write: `DB` (spec/10_state.md R48) and an OAM DMA request (spec/20_memory.md R96). -/
def busAfterWrite (a : Addr) (v : Byte) (s : State) : Bus :=
  { s.bus with
    db := v
    oamdmaPending := s.bus.oamdmaPending || a.toNat == 0x4014
    oamdmaPage := if a.toNat = 0x4014 then v else s.bus.oamdmaPage }

/-- A write of `v` at `a`, with no time passing. -/
def busWrite (a : Addr) (v : Byte) (s : State) : State :=
  { s with
    bus := busAfterWrite a v s
    ram := ramAfterWrite a v s
    prgRam := prgRamAfterWrite a v s
    chrRam := chrRamAfterWrite a v s
    ciram := ciramAfterWrite a v s
    mapper := mapperAfterWrite a v s
    ppu := ppuAfterWrite a v s
    apu := apuAfterWrite a v s
    input := inputAfterWrite a v s
    diag := diagAfterWrite a v s }

/-! One CPU cycle (spec/64_orchestrator.md R599). -/

/-- The PPU dots of the CPU cycle that begins at master cycle `m` (R599). -/
def dotsAt (rg : Region) (m : Nat) : Nat := (m + rg.cpuDiv) / rg.ppuDiv - m / rg.ppuDiv

/-- Step (3) of `ApuTick`, the DMC memory reader (spec/63_apu.md R566): it stalls the CPU and reads one byte. Its address is in
0x8000 to 0xFFFF, where a read has no effect but on `DB` (log 8). -/
def dmcFetch (s : State) : State :=
  if s.apu.dmc.wantsByte then
    let b := busValue s.apu.dmc.curAddr s
    let r := s.apu.dmc.take b
    { s with
      apu := { s.apu with dmc := r.1, dmcIrq := s.apu.dmcIrq || r.2 }
      bus := { s.bus with db := b, stall := s.bus.stall + s.cfg.dmcStall } }
  else s

/-- `ApuTick()` (spec/63_apu.md R513). -/
def apuTick (s : State) : State :=
  let rg := s.image.region
  let s := dmcFetch { s with apu := s.apu.tickFrame rg }
  { s with apu := (s.apu.tickTimers rg s.bus.cyc).sample rg s.cfg }

/-- The part of a CPU cycle before the access: the dots and the APU tick (spec/64_orchestrator.md R599). -/
def beginCycle (s : State) : State := apuTick (runDots (dotsAt s.image.region s.bus.mclk) s)

/-- The part of a CPU cycle after the access: the counters and the NMI sample (R599; spec/10_state.md R49). -/
def endCycle (s : State) : State :=
  let req := s.ppu.nmiRequest
  { s with bus := { s.bus with
      cyc := s.bus.cyc + 1
      mclk := s.bus.mclk + s.image.region.cpuDiv
      nmiPending := s.bus.nmiPending || (req && !s.bus.nmiPrev)
      nmiPrev := req } }

/-- `CpuCycle(idle)` (R599). -/
def idleCycle (s : State) : State := endCycle (beginCycle s)

/-- `CpuCycle(read a)` (R599). -/
def readCycle (a : Addr) (s : State) : Byte × State :=
  let r := busRead a (beginCycle s)
  (r.1, endCycle r.2)

/-- `CpuCycle(write a, v)` (R599). -/
def writeCycle (a : Addr) (v : Byte) (s : State) : State := endCycle (busWrite a v (beginCycle s))

/-! What happens before a CPU read: stall cycles, then OAM DMA (spec/10_state.md R51; spec/20_memory.md R96, R97). -/

/-- One stall cycle (spec/10_state.md R51). -/
def spendStall (s : State) : State :=
  let s := idleCycle s
  { s with bus := { s.bus with stall := s.bus.stall - 1 } }

/-- "while `stall > 0`" spend a stall cycle (R51), at most `fuel` times; a loop that outlives its fuel never ends (log 6). -/
def drainLoop : Nat → State → State
  | 0, s => if s.bus.stall = 0 then s else { s with hung := true }
  | fuel + 1, s => if s.bus.stall = 0 then s else drainLoop fuel (spendStall s)

/-- More cycles than any stall loop that ends can take: a DMC sample has at most 4095 bytes left, or it loops and the stall
falls by at least one in every eight DMC periods of at most 428 cycles (log 6). -/
def stallFuel (s : State) : Nat := 4000 * (4096 * (s.cfg.dmcStall + 1) + s.bus.stall)

/-- Spend the stall cycles requested (R51). -/
def drainStall (s : State) : State := drainLoop (stallFuel s) s

/-- The transfers `i, i + 1, …` of an OAM DMA, `n` of them (spec/20_memory.md R96). -/
def dmaCopy (page : Byte) : Nat → Nat → State → State
  | 0, _, s => s
  | n + 1, i, s =>
    let r := readCycle (word page (BitVec.ofNat 8 i)) s
    dmaCopy page n (i + 1) (writeCycle 0x2004 r.1 r.2)

/-- The idle cycles before an OAM DMA: one, and one more when `cyc` is then odd (R96). -/
def dmaAlign (s : State) : State :=
  let s := idleCycle { s with bus := { s.bus with oamdmaPending := false } }
  if s.bus.cyc % 2 = 1 then idleCycle s else s

/-- The OAM DMA engine, from the request to its end (R96). -/
def runDma (s : State) : State := dmaCopy s.bus.oamdmaPage 256 0 (dmaAlign s)

/-- What precedes a CPU read: the stall cycles, then a requested OAM DMA and the stall cycles that it gave rise to (R51, R96,
R97; log 7). -/
def preRead (s : State) : State :=
  let s := drainStall s
  if s.bus.oamdmaPending then drainStall (runDma s) else s

/-- `MemRead(a, 1)` (spec/00_scope.md R15). -/
def memRead (a : Addr) (s : State) : Byte × State := readCycle a (preRead s)

/-- `MemWrite(a, 1, v)` (R15); no stall cycle and no DMA precedes a write (spec/10_state.md R51; spec/20_memory.md R96). -/
def memWrite (a : Addr) (v : Byte) (s : State) : State := writeCycle a v s

/-- `irq_line` (spec/10_state.md R50). -/
def irqLine (s : State) : Bool := s.apu.frameIrq || s.apu.dmcIrq || s.mapper.irq

end Sys2Proof.Machine
end

