-- ==== Sys2Proof/Machine/Flags.lean ====
section
/-! DEFINITION. The flag computations and the byte functions of the arithmetic, logic, shift and compare instructions, on the
CPU's registers (spec/00_scope.md R17; spec/42_arithmetic_logic.md; spec/43_incdec_shift.md; spec/46_unofficial.md). Bounds
are over the naturals, as the rules write them, and the result is cut to a byte at the end. -/

namespace Sys2Proof.Machine

/-- `setNZ(v)` (R17). -/
def Cpu.setNZ (v : Byte) (c : Cpu) : Cpu := { c with z := v == 0, n := v.getLsbD 7 }

/-- `Pbyte(b)` (R17): N V 1 b D I Z C from bit 7 down. -/
def Cpu.pByte (b : Bool) (c : Cpu) : Byte :=
  BitVec.ofBool c.n ++ BitVec.ofBool c.v ++ (1 : BitVec 1) ++ BitVec.ofBool b ++ BitVec.ofBool c.d ++ BitVec.ofBool c.i
    ++ BitVec.ofBool c.z ++ BitVec.ofBool c.c

/-- `setP(v)` (R17): bits 5 and 4 are ignored. -/
def Cpu.setP (v : Byte) (c : Cpu) : Cpu :=
  { c with
    n := v.getLsbD 7
    v := v.getLsbD 6
    d := v.getLsbD 3
    i := v.getLsbD 2
    z := v.getLsbD 1
    c := v.getLsbD 0 }

/-! Loads and logic. -/

/-- `A <- v; setNZ(A)`. -/
def Cpu.loadA (v : Byte) (c : Cpu) : Cpu := ({ c with a := v } : Cpu).setNZ v

/-- `X <- v; setNZ(X)`. -/
def Cpu.loadX (v : Byte) (c : Cpu) : Cpu := ({ c with x := v } : Cpu).setNZ v

/-- `Y <- v; setNZ(Y)`. -/
def Cpu.loadY (v : Byte) (c : Cpu) : Cpu := ({ c with y := v } : Cpu).setNZ v

/-- `A <- A & m; setNZ(A)` (R202). -/
def Cpu.and (m : Byte) (c : Cpu) : Cpu := c.loadA (c.a &&& m)

/-- `A <- A | m; setNZ(A)` (R203). -/
def Cpu.ora (m : Byte) (c : Cpu) : Cpu := c.loadA (c.a ||| m)

/-- `A <- A ^ m; setNZ(A)` (R204). -/
def Cpu.eor (m : Byte) (c : Cpu) : Cpu := c.loadA (c.a ^^^ m)

/-! Addition, subtraction, comparison. -/

/-- The sum `t = A + m + C` of R200 over the naturals. -/
def Cpu.addSum (m : Byte) (c : Cpu) : Nat := c.a.toNat + m.toNat + c.c.toNat

/-- ADC with operand `m` (R200). D is not read. -/
def Cpu.adc (m : Byte) (c : Cpu) : Cpu :=
  let t := c.addSum m
  let r := BitVec.ofNat 8 t
  ({ c with v := ((c.a ^^^ r) &&& (m ^^^ r) &&& 0x80) != 0, c := decide (256 ≤ t), a := r } : Cpu).setNZ r

/-- SBC with operand `m` (R201): ADC of the one's complement. -/
def Cpu.sbc (m : Byte) (c : Cpu) : Cpu := c.adc (m ^^^ 0xFF)

/-- The compare of register value `r` with `m` (R205 to R207). -/
def Cpu.compare (r m : Byte) (c : Cpu) : Cpu :=
  { c with c := decide (m.toNat ≤ r.toNat), z := r == m, n := (r - m).getLsbD 7 }

/-- BIT with operand `m` (R208). -/
def Cpu.bit (m : Byte) (c : Cpu) : Cpu :=
  { c with z := (c.a &&& m) == 0, n := m.getLsbD 7, v := m.getLsbD 6 }

/-! Shifts, rotates, increments: the new byte and the registers, flags set from the new byte (R220 to R229). -/

/-- `new <- old + 1; setNZ(new)` (R220). -/
def Cpu.inc (old : Byte) (c : Cpu) : Byte × Cpu := (old + 1, c.setNZ (old + 1))

/-- `new <- old - 1; setNZ(new)` (R221). -/
def Cpu.dec (old : Byte) (c : Cpu) : Byte × Cpu := (old - 1, c.setNZ (old - 1))

/-- The byte ASL makes of `old` (R226). -/
def aslByte (old : Byte) : Byte := old <<< 1

/-- The byte LSR makes of `old` (R227). -/
def lsrByte (old : Byte) : Byte := old >>> 1

/-- The byte ROL makes of `old` with carry `cin` (R228). -/
def rolByte (cin : Bool) (old : Byte) : Byte := (old <<< 1) ||| (BitVec.ofBool cin).setWidth 8

/-- The byte ROR makes of `old` with carry `cin` (R229). -/
def rorByte (cin : Bool) (old : Byte) : Byte := (old >>> 1) ||| ((BitVec.ofBool cin).setWidth 8 <<< 7)

/-- ASL (R226). -/
def Cpu.asl (old : Byte) (c : Cpu) : Byte × Cpu :=
  (aslByte old, ({ c with c := old.getLsbD 7 } : Cpu).setNZ (aslByte old))

/-- LSR (R227). -/
def Cpu.lsr (old : Byte) (c : Cpu) : Byte × Cpu :=
  (lsrByte old, ({ c with c := old.getLsbD 0 } : Cpu).setNZ (lsrByte old))

/-- ROL (R228). -/
def Cpu.rol (old : Byte) (c : Cpu) : Byte × Cpu :=
  (rolByte c.c old, ({ c with c := old.getLsbD 7 } : Cpu).setNZ (rolByte c.c old))

/-- ROR (R229). -/
def Cpu.ror (old : Byte) (c : Cpu) : Byte × Cpu :=
  (rorByte c.c old, ({ c with c := old.getLsbD 0 } : Cpu).setNZ (rorByte c.c old))

/-! The unofficial combinations (spec/46_unofficial.md). -/

/-- SLO (R281): the shift, then ORA of the new byte. -/
def Cpu.slo (old : Byte) (c : Cpu) : Byte × Cpu :=
  (aslByte old, ({ c with c := old.getLsbD 7 } : Cpu).ora (aslByte old))

/-- RLA (R282): the rotate, then AND of the new byte. -/
def Cpu.rla (old : Byte) (c : Cpu) : Byte × Cpu :=
  (rolByte c.c old, ({ c with c := old.getLsbD 7 } : Cpu).and (rolByte c.c old))

/-- SRE (R283): the shift, then EOR of the new byte. -/
def Cpu.sre (old : Byte) (c : Cpu) : Byte × Cpu :=
  (lsrByte old, ({ c with c := old.getLsbD 0 } : Cpu).eor (lsrByte old))

/-- RRA (R284): the rotate, then ADC of the new byte with the carry just computed. -/
def Cpu.rra (old : Byte) (c : Cpu) : Byte × Cpu :=
  (rorByte c.c old, ({ c with c := old.getLsbD 0 } : Cpu).adc (rorByte c.c old))

/-- DCP (R287): the decrement, then CMP with the new byte. -/
def Cpu.dcp (old : Byte) (c : Cpu) : Byte × Cpu := (old - 1, c.compare c.a (old - 1))

/-- ISC (R288): the increment, then SBC of the new byte. -/
def Cpu.isc (old : Byte) (c : Cpu) : Byte × Cpu := (old + 1, c.sbc (old + 1))

/-- LAX (R286). -/
def Cpu.lax (m : Byte) (c : Cpu) : Cpu := ({ c with a := m, x := m } : Cpu).setNZ m

/-- LAS (R300). -/
def Cpu.las (m : Byte) (c : Cpu) : Cpu :=
  let v := m &&& c.s
  ({ c with a := v, x := v, s := v } : Cpu).setNZ v

/-- ANC (R289): AND, then `C <- N`. -/
def Cpu.anc (m : Byte) (c : Cpu) : Cpu :=
  let c := c.and m
  { c with c := c.n }

/-- ALR (R290): AND, then LSR of the accumulator. -/
def Cpu.alr (m : Byte) (c : Cpu) : Cpu :=
  let t := c.a &&& m
  ({ c with c := t.getLsbD 0 } : Cpu).loadA (lsrByte t)

/-- ARR (R291). -/
def Cpu.arr (m : Byte) (c : Cpu) : Cpu :=
  let r := rorByte c.c (c.a &&& m)
  let c := c.loadA r
  { c with c := r.getLsbD 6, v := r.getLsbD 6 ^^ r.getLsbD 5 }

/-- AXS (R292). -/
def Cpu.axs (m : Byte) (c : Cpu) : Cpu :=
  let t := c.a &&& c.x
  ({ c with c := decide (m.toNat ≤ t.toNat), x := t - m } : Cpu).setNZ (t - m)

/-- XAA with the constant `magic` (R294; log 20). -/
def Cpu.xaa (magic m : Byte) (c : Cpu) : Cpu := c.loadA ((c.a ||| magic) &&& c.x &&& m)

/-- LXA with the constant `magic` (R295; log 20). -/
def Cpu.lxa (magic m : Byte) (c : Cpu) : Cpu := c.lax ((c.a ||| magic) &&& m)

end Sys2Proof.Machine
end

