-- ==== Sys2Proof/Machine/Ops.lean ====
section
/-! DEFINITION. The named operations over registers, stack and instruction stream that the meanings share (spec/00_scope.md R15 to
R19), fetching an instruction, taking an interrupt or BRK as one operation, and the reset sequence (spec/60_exceptions.md R328
to R330; spec/45_flags_system.md R268, R269; spec/70_reset_and_hazards.md R632). -/

namespace Sys2Proof.Machine

/-! Register updates. -/

/-- Apply a function of the CPU's registers. -/
def State.mapCpu (f : Cpu → Cpu) (s : State) : State := { s with cpu := f s.cpu }

/-- `PC <- v`. -/
def State.setPc (v : Addr) (s : State) : State := { s with cpu := { s.cpu with pc := v } }

/-- `S <- v`. -/
def State.setS (v : Byte) (s : State) : State := { s with cpu := { s.cpu with s := v } }

/-- `I <- v`. -/
def State.setI (v : Bool) (s : State) : State := { s with cpu := { s.cpu with i := v } }

/-- `log Diagnostic(...)` (R18). -/
def State.log (d : Diagnostic) (s : State) : State := { s with diag := s.diag ++ [d] }

/-! Accesses. -/

/-- A dummy read: a `MemRead` whose value is discarded (R15). -/
def dummyRead (a : Addr) (s : State) : State := (memRead a s).2

/-- `fetch()` (R19). -/
def fetch (s : State) : Byte × State :=
  let r := memRead s.cpu.pc s
  (r.1, r.2.setPc (s.cpu.pc + 1))

/-- The stack address for a stack pointer (R16; spec/10_state.md R34). -/
def stackAddr (p : Byte) : Addr := word 0x01 p

/-- `push(v)` (R16). -/
def push (v : Byte) (s : State) : State := (memWrite (stackAddr s.cpu.s) v s).setS (s.cpu.s - 1)

/-- `pull()` (R16). -/
def pull (s : State) : Byte × State :=
  let s := s.setS (s.cpu.s + 1)
  memRead (stackAddr s.cpu.s) s

/-- The dummy read of the stack before a pull (spec/30_encoding.md R147). -/
def dummyStack (s : State) : State := dummyRead (stackAddr s.cpu.s) s

/-- Read the two bytes at `lo` and `hi`, the first one first (spec/20_memory.md R70). -/
def readWord (lo hi : Addr) (s : State) : Addr × State :=
  let l := memRead lo s
  let h := memRead hi l.2
  (word h.1 l.1, h.2)

/-! Fetching an instruction. -/

/-- The bytes of the instruction at `PC` as the bus returns them, opcode first, and the state after their fetch cycles
(spec/30_encoding.md R127, R130). JSR fetches its third byte itself, after its pushes (spec/44_control_transfer.md R241): here it
is only looked at, without a cycle, so that the decoder sees three bytes (log 11). -/
def fetchInstr (s : State) : List Byte × State :=
  let op := fetch s
  match instrLength op.1 with
  | 1 => ([op.1], op.2)
  | 2 =>
    let x := fetch op.2
    ([op.1, x.1], x.2)
  | _ =>
    let x := fetch op.2
    if op.1 = 0x20 then ([op.1, x.1, busValue x.2.cpu.pc x.2], x.2)
    else
      let y := fetch x.2
      ([op.1, x.1, y.1], y.2)

/-! Exceptions. -/

/-- Taking an exception, shared by NMI, IRQ and BRK (spec/60_exceptions.md R328; spec/45_flags_system.md R268): PC is pushed high
byte first, then the flags with marker `b`, I becomes 1, and PC is loaded from the vector. -/
def takeException (vec : Addr) (b : Bool) (s : State) : State :=
  let s := push (hi8 s.cpu.pc) s
  let s := push (lo8 s.cpu.pc) s
  let s := push (s.cpu.pByte b) s
  let s := s.setI true
  let r := readWord vec (vec + 1) s
  r.2.setPc r.1

/-- The return from an exception (spec/45_flags_system.md R269): flags, then PC low, then PC high are pulled. -/
def returnFromException (s : State) : State :=
  let p := pull s
  let s := p.2.mapCpu (Cpu.setP p.1)
  let lo := pull s
  let hi := pull lo.2
  hi.2.setPc (word hi.1 lo.1)

/-- The entry sequence common to NMI and IRQ (spec/60_exceptions.md R328). -/
def interruptEntry (vec : Addr) (s : State) : State :=
  let s := dummyRead s.cpu.pc s
  let s := dummyRead s.cpu.pc s
  takeException vec false s

/-- NMI entry (R329). -/
def nmiEntry (s : State) : State := interruptEntry 0xFFFA { s with bus := { s.bus with nmiPending := false } }

/-- IRQ entry (R330). -/
def irqEntry (s : State) : State := interruptEntry 0xFFFE s

/-- One cycle of the reset sequence's suppressed pushes (spec/70_reset_and_hazards.md R632). -/
def resetStackCycle (s : State) : State := (dummyStack s).setS (s.cpu.s - 1)

/-- The reset sequence (R632). -/
def resetSequence (s : State) : State :=
  let s : State := { s with bus := { s.bus with resetPending := false } }
  let s := dummyRead s.cpu.pc s
  let s := dummyRead s.cpu.pc s
  let s := resetStackCycle s
  let s := resetStackCycle s
  let s := resetStackCycle s
  let s := s.setI true
  let r := readWord 0xFFFC 0xFFFD s
  r.2.setPc r.1

end Sys2Proof.Machine
end

