-- ==== Sys2Proof/Machine/Operands.lean ====
section
/-! DEFINITION. The operand forms: effective addresses with the dummy reads of their bus sequences, and the read, write and
read-modify-write accesses (spec/30_encoding.md R131 to R147). The operand bytes have been fetched when these run (log 11). -/

namespace Sys2Proof.Machine

/-- The classes of R131. -/
inductive AccClass where
  | read
  | write
  | modify
deriving DecidableEq, Repr

/-- An address in page zero (R123). -/
def zeroPage (z : Byte) : Addr := word 0x00 z

/-- Whether indexing the base by `i` crosses a page (R145). -/
def crosses (base : Addr) (i : Byte) : Bool := decide (256 ≤ (lo8 base).toNat + i.toNat)

/-- The indexed address `(base + i) mod 65536` (R138). -/
def indexedAddr (base : Addr) (i : Byte) : Addr := base + i.setWidth 16

/-- The address of the dummy read of an indexed format: the right low byte under the base's high byte (R138, R139, R147). -/
def uncarried (base : Addr) (i : Byte) : Addr := word (hi8 base) (lo8 base + i)

/-- The indexing stage of abx, aby and izy (R138, R139, R141): the dummy read is made always, but for the read class only when a
page is crossed. -/
def indexed (cls : AccClass) (base : Addr) (i : Byte) (s : State) : Addr × State :=
  (indexedAddr base i, if cls = .read && !crosses base i then s else dummyRead (uncarried base i) s)

/-- A pointer in page zero: its two bytes are at `p` and `(p + 1) mod 256` (R140, R141). -/
def zpPointer (p : Byte) (s : State) : Addr × State := readWord (zeroPage p) (zeroPage (p + 1)) s

/-- `EA_<mode>(class)` without the operand fetches: the effective address and the state after the dummy and pointer reads (R135 to
R141). -/
def effAddr (cls : AccClass) (m : MemOperand) (s : State) : Addr × State :=
  match m with
  | .zp z => (zeroPage z, s)
  | .zpx z => (zeroPage (z + s.cpu.x), dummyRead (zeroPage z) s)
  | .zpy z => (zeroPage (z + s.cpu.y), dummyRead (zeroPage z) s)
  | .abs l h => (word h l, s)
  | .abx l h => indexed cls (word h l) s.cpu.x s
  | .aby l h => indexed cls (word h l) s.cpu.y s
  | .izx z => zpPointer (z + s.cpu.x) (dummyRead (zeroPage z) s)
  | .izy z =>
    let p := zpPointer z s
    indexed cls p.1 s.cpu.y p.2

/-- The operand byte `M` of a read-class instruction (R131, R134, R146). -/
def readSrc (x : Src) (s : State) : Byte × State :=
  match x with
  | .imm d => (d, s)
  | .mem m =>
    let e := effAddr .read m s
    memRead e.1 e.2

/-- A write-class access of the value `v` of the registers (R131). -/
def storeOperand (v : Cpu → Byte) (m : MemOperand) (s : State) : State :=
  let e := effAddr .write m s
  memWrite e.1 (v e.2.cpu) e.2

/-- A read-modify-write access (R132): `f` gives the new byte and the registers from the old byte. -/
def modifyOperand (f : Byte → Cpu → Byte × Cpu) (m : MemOperand) (s : State) : State :=
  let e := effAddr .modify m s
  let old := memRead e.1 e.2
  let s := memWrite e.1 old.1 old.2
  let r := f old.1 s.cpu
  memWrite e.1 r.1 { s with cpu := r.2 }

/-- The accumulator form of a read-modify-write instruction (R133; spec/43_incdec_shift.md section 2). -/
def modifyAcc (f : Byte → Cpu → Byte × Cpu) (s : State) : State :=
  let s := dummyRead s.cpu.pc s
  let r := f s.cpu.a s.cpu
  { s with cpu := { r.2 with a := r.1 } }

/-- An implied-format operation on the registers (R133). -/
def implied (f : Cpu → Cpu) (s : State) : State := (dummyRead s.cpu.pc s).mapCpu f

/-- A read-class operation on the registers. -/
def readOperand (f : Byte → Cpu → Cpu) (x : Src) (s : State) : State :=
  let r := readSrc x s
  r.2.mapCpu (f r.1)

/-- Where an address-high-byte store goes: under the stored value when the indexing crossed a page (spec/46_unofficial.md
section 4). -/
def highTarget (base : Addr) (i v : Byte) : Addr :=
  if crosses base i then word v (lo8 (indexedAddr base i)) else indexedAddr base i

/-- The store of `reg & (h + 1)`, `h` the high byte of the base (R296 to R299; log 20). -/
def storeHigh (reg : Byte) (base : Addr) (i : Byte) (s : State) : State :=
  let v := reg &&& (hi8 base + 1)
  memWrite (highTarget base i v) v (indexed .write base i s).2

/-- The target of a relative branch, from the address of the next instruction (R123, R142). -/
def branchTarget (next : Addr) (o : Byte) : Addr := next + o.signExtend 16

/-- The relative format (R142; spec/44_control_transfer.md R243). -/
def branch (cond : Bool) (o : Byte) (s : State) : State :=
  if cond then
    let next := s.cpu.pc
    let t := branchTarget next o
    let s := dummyRead next s
    let s := if hi8 t = hi8 next then s else dummyRead (word (hi8 next) (lo8 t)) s
    s.setPc t
  else s

end Sys2Proof.Machine
end

