-- ==== Sys2Proof/Machine/Arith.lean ====
section
/-! DEFINITION. Arithmetic, logic, compare and bit test (spec/42_arithmetic_logic.md). One shared operation per mnemonic, one meaning per opcode. -/

namespace Sys2Proof.Machine

/-- ADC (R200). -/
def opAdc (x : Src) (s : State) : Host.Outcome State Fault Refusal := .next (readOperand Cpu.adc x s)

/-- SBC (R201). -/
def opSbc (x : Src) (s : State) : Host.Outcome State Fault Refusal := .next (readOperand Cpu.sbc x s)

/-- AND (R202). -/
def opAnd (x : Src) (s : State) : Host.Outcome State Fault Refusal := .next (readOperand Cpu.and x s)

/-- ORA (R203). -/
def opOra (x : Src) (s : State) : Host.Outcome State Fault Refusal := .next (readOperand Cpu.ora x s)

/-- EOR (R204). -/
def opEor (x : Src) (s : State) : Host.Outcome State Fault Refusal := .next (readOperand Cpu.eor x s)

/-- CMP (R205). -/
def opCmp (x : Src) (s : State) : Host.Outcome State Fault Refusal := .next (readOperand (fun m c => c.compare c.a m) x s)

/-- CPX (R206). -/
def opCpx (x : Src) (s : State) : Host.Outcome State Fault Refusal := .next (readOperand (fun m c => c.compare c.x m) x s)

/-- CPY (R207). -/
def opCpy (x : Src) (s : State) : Host.Outcome State Fault Refusal := .next (readOperand (fun m c => c.compare c.y m) x s)

/-- BIT (R208). -/
def opBit (x : Src) (s : State) : Host.Outcome State Fault Refusal := .next (readOperand Cpu.bit x s)

/-- 0x01: ORA izx (R203). -/
def execOraIzx (z : Byte) (s : State) : Host.Outcome State Fault Refusal := opOra (.mem (.izx z)) s

/-- 0x05: ORA zp (R203). -/
def execOraZp (z : Byte) (s : State) : Host.Outcome State Fault Refusal := opOra (.mem (.zp z)) s

/-- 0x09: ORA imm (R203). -/
def execOraImm (d : Byte) (s : State) : Host.Outcome State Fault Refusal := opOra (.imm d) s

/-- 0x0D: ORA abs (R203). -/
def execOraAbs (l h : Byte) (s : State) : Host.Outcome State Fault Refusal := opOra (.mem (.abs l h)) s

/-- 0x11: ORA izy (R203). -/
def execOraIzy (z : Byte) (s : State) : Host.Outcome State Fault Refusal := opOra (.mem (.izy z)) s

/-- 0x15: ORA zpx (R203). -/
def execOraZpx (z : Byte) (s : State) : Host.Outcome State Fault Refusal := opOra (.mem (.zpx z)) s

/-- 0x19: ORA aby (R203). -/
def execOraAby (l h : Byte) (s : State) : Host.Outcome State Fault Refusal := opOra (.mem (.aby l h)) s

/-- 0x1D: ORA abx (R203). -/
def execOraAbx (l h : Byte) (s : State) : Host.Outcome State Fault Refusal := opOra (.mem (.abx l h)) s

/-- 0x21: AND izx (R202). -/
def execAndIzx (z : Byte) (s : State) : Host.Outcome State Fault Refusal := opAnd (.mem (.izx z)) s

/-- 0x24: BIT zp (R208). -/
def execBitZp (z : Byte) (s : State) : Host.Outcome State Fault Refusal := opBit (.mem (.zp z)) s

/-- 0x25: AND zp (R202). -/
def execAndZp (z : Byte) (s : State) : Host.Outcome State Fault Refusal := opAnd (.mem (.zp z)) s

/-- 0x29: AND imm (R202). -/
def execAndImm (d : Byte) (s : State) : Host.Outcome State Fault Refusal := opAnd (.imm d) s

/-- 0x2C: BIT abs (R208). -/
def execBitAbs (l h : Byte) (s : State) : Host.Outcome State Fault Refusal := opBit (.mem (.abs l h)) s

/-- 0x2D: AND abs (R202). -/
def execAndAbs (l h : Byte) (s : State) : Host.Outcome State Fault Refusal := opAnd (.mem (.abs l h)) s

/-- 0x31: AND izy (R202). -/
def execAndIzy (z : Byte) (s : State) : Host.Outcome State Fault Refusal := opAnd (.mem (.izy z)) s

/-- 0x35: AND zpx (R202). -/
def execAndZpx (z : Byte) (s : State) : Host.Outcome State Fault Refusal := opAnd (.mem (.zpx z)) s

/-- 0x39: AND aby (R202). -/
def execAndAby (l h : Byte) (s : State) : Host.Outcome State Fault Refusal := opAnd (.mem (.aby l h)) s

/-- 0x3D: AND abx (R202). -/
def execAndAbx (l h : Byte) (s : State) : Host.Outcome State Fault Refusal := opAnd (.mem (.abx l h)) s

/-- 0x41: EOR izx (R204). -/
def execEorIzx (z : Byte) (s : State) : Host.Outcome State Fault Refusal := opEor (.mem (.izx z)) s

/-- 0x45: EOR zp (R204). -/
def execEorZp (z : Byte) (s : State) : Host.Outcome State Fault Refusal := opEor (.mem (.zp z)) s

/-- 0x49: EOR imm (R204). -/
def execEorImm (d : Byte) (s : State) : Host.Outcome State Fault Refusal := opEor (.imm d) s

/-- 0x4D: EOR abs (R204). -/
def execEorAbs (l h : Byte) (s : State) : Host.Outcome State Fault Refusal := opEor (.mem (.abs l h)) s

/-- 0x51: EOR izy (R204). -/
def execEorIzy (z : Byte) (s : State) : Host.Outcome State Fault Refusal := opEor (.mem (.izy z)) s

/-- 0x55: EOR zpx (R204). -/
def execEorZpx (z : Byte) (s : State) : Host.Outcome State Fault Refusal := opEor (.mem (.zpx z)) s

/-- 0x59: EOR aby (R204). -/
def execEorAby (l h : Byte) (s : State) : Host.Outcome State Fault Refusal := opEor (.mem (.aby l h)) s

/-- 0x5D: EOR abx (R204). -/
def execEorAbx (l h : Byte) (s : State) : Host.Outcome State Fault Refusal := opEor (.mem (.abx l h)) s

/-- 0x61: ADC izx (R200). -/
def execAdcIzx (z : Byte) (s : State) : Host.Outcome State Fault Refusal := opAdc (.mem (.izx z)) s

/-- 0x65: ADC zp (R200). -/
def execAdcZp (z : Byte) (s : State) : Host.Outcome State Fault Refusal := opAdc (.mem (.zp z)) s

/-- 0x69: ADC imm (R200). -/
def execAdcImm (d : Byte) (s : State) : Host.Outcome State Fault Refusal := opAdc (.imm d) s

/-- 0x6D: ADC abs (R200). -/
def execAdcAbs (l h : Byte) (s : State) : Host.Outcome State Fault Refusal := opAdc (.mem (.abs l h)) s

/-- 0x71: ADC izy (R200). -/
def execAdcIzy (z : Byte) (s : State) : Host.Outcome State Fault Refusal := opAdc (.mem (.izy z)) s

/-- 0x75: ADC zpx (R200). -/
def execAdcZpx (z : Byte) (s : State) : Host.Outcome State Fault Refusal := opAdc (.mem (.zpx z)) s

/-- 0x79: ADC aby (R200). -/
def execAdcAby (l h : Byte) (s : State) : Host.Outcome State Fault Refusal := opAdc (.mem (.aby l h)) s

/-- 0x7D: ADC abx (R200). -/
def execAdcAbx (l h : Byte) (s : State) : Host.Outcome State Fault Refusal := opAdc (.mem (.abx l h)) s

/-- 0xC0: CPY imm (R207). -/
def execCpyImm (d : Byte) (s : State) : Host.Outcome State Fault Refusal := opCpy (.imm d) s

/-- 0xC1: CMP izx (R205). -/
def execCmpIzx (z : Byte) (s : State) : Host.Outcome State Fault Refusal := opCmp (.mem (.izx z)) s

/-- 0xC4: CPY zp (R207). -/
def execCpyZp (z : Byte) (s : State) : Host.Outcome State Fault Refusal := opCpy (.mem (.zp z)) s

/-- 0xC5: CMP zp (R205). -/
def execCmpZp (z : Byte) (s : State) : Host.Outcome State Fault Refusal := opCmp (.mem (.zp z)) s

/-- 0xC9: CMP imm (R205). -/
def execCmpImm (d : Byte) (s : State) : Host.Outcome State Fault Refusal := opCmp (.imm d) s

/-- 0xCC: CPY abs (R207). -/
def execCpyAbs (l h : Byte) (s : State) : Host.Outcome State Fault Refusal := opCpy (.mem (.abs l h)) s

/-- 0xCD: CMP abs (R205). -/
def execCmpAbs (l h : Byte) (s : State) : Host.Outcome State Fault Refusal := opCmp (.mem (.abs l h)) s

/-- 0xD1: CMP izy (R205). -/
def execCmpIzy (z : Byte) (s : State) : Host.Outcome State Fault Refusal := opCmp (.mem (.izy z)) s

/-- 0xD5: CMP zpx (R205). -/
def execCmpZpx (z : Byte) (s : State) : Host.Outcome State Fault Refusal := opCmp (.mem (.zpx z)) s

/-- 0xD9: CMP aby (R205). -/
def execCmpAby (l h : Byte) (s : State) : Host.Outcome State Fault Refusal := opCmp (.mem (.aby l h)) s

/-- 0xDD: CMP abx (R205). -/
def execCmpAbx (l h : Byte) (s : State) : Host.Outcome State Fault Refusal := opCmp (.mem (.abx l h)) s

/-- 0xE0: CPX imm (R206). -/
def execCpxImm (d : Byte) (s : State) : Host.Outcome State Fault Refusal := opCpx (.imm d) s

/-- 0xE1: SBC izx (R201). -/
def execSbcIzx (z : Byte) (s : State) : Host.Outcome State Fault Refusal := opSbc (.mem (.izx z)) s

/-- 0xE4: CPX zp (R206). -/
def execCpxZp (z : Byte) (s : State) : Host.Outcome State Fault Refusal := opCpx (.mem (.zp z)) s

/-- 0xE5: SBC zp (R201). -/
def execSbcZp (z : Byte) (s : State) : Host.Outcome State Fault Refusal := opSbc (.mem (.zp z)) s

/-- 0xE9: SBC imm (R201). -/
def execSbcImm (d : Byte) (s : State) : Host.Outcome State Fault Refusal := opSbc (.imm d) s

/-- 0xEC: CPX abs (R206). -/
def execCpxAbs (l h : Byte) (s : State) : Host.Outcome State Fault Refusal := opCpx (.mem (.abs l h)) s

/-- 0xED: SBC abs (R201). -/
def execSbcAbs (l h : Byte) (s : State) : Host.Outcome State Fault Refusal := opSbc (.mem (.abs l h)) s

/-- 0xF1: SBC izy (R201). -/
def execSbcIzy (z : Byte) (s : State) : Host.Outcome State Fault Refusal := opSbc (.mem (.izy z)) s

/-- 0xF5: SBC zpx (R201). -/
def execSbcZpx (z : Byte) (s : State) : Host.Outcome State Fault Refusal := opSbc (.mem (.zpx z)) s

/-- 0xF9: SBC aby (R201). -/
def execSbcAby (l h : Byte) (s : State) : Host.Outcome State Fault Refusal := opSbc (.mem (.aby l h)) s

/-- 0xFD: SBC abx (R201). -/
def execSbcAbx (l h : Byte) (s : State) : Host.Outcome State Fault Refusal := opSbc (.mem (.abx l h)) s

end Sys2Proof.Machine
end

