-- ==== Sys2Proof/Machine/Control.lean ====
section
/-! DEFINITION. Jumps, calls and branches (spec/44_control_transfer.md). One shared operation per mnemonic, one meaning per opcode. -/

namespace Sys2Proof.Machine

/-- JMP absolute (R240). -/
def opJmp (l h : Byte) (s : State) : Host.Outcome State Fault Refusal := .next (s.setPc (word h l))

/-- JMP indirect (R240; spec/30_encoding.md R143): the pointer's second byte is read from the page of the first. -/
def opJmpInd (l h : Byte) (s : State) : Host.Outcome State Fault Refusal :=
  let r := readWord (word h l) (word h (l + 1)) s
  .next (r.2.setPc r.1)

/-- JSR (R241): PC points at the third byte; it is read after the two pushes, so a JSR among the stack bytes it overwrites jumps by
what it pushed. spec/20_memory.md R89 says in passing that no instruction can do that, on the ground of spec/30_encoding.md R130 to
R147, of which R137 excepts JSR; R241 is followed (log 29: DEDUCED). -/
def opJsr (l : Byte) (s : State) : Host.Outcome State Fault Refusal :=
  let s := dummyStack s
  let s := push (hi8 s.cpu.pc) s
  let s := push (lo8 s.cpu.pc) s
  let h := memRead s.cpu.pc s
  .next (h.2.setPc (word h.1 l))

/-- RTS (R242). -/
def opRts (s : State) : Host.Outcome State Fault Refusal :=
  let s := dummyStack (dummyRead s.cpu.pc s)
  let lo := pull s
  let hi := pull lo.2
  let target := word hi.1 lo.1
  .next ((dummyRead target (hi.2.setPc target)).setPc (target + 1))

/-- BCC (R244). -/
def opBcc (o : Byte) (s : State) : Host.Outcome State Fault Refusal := .next (branch (!s.cpu.c) o s)

/-- BCS (R245). -/
def opBcs (o : Byte) (s : State) : Host.Outcome State Fault Refusal := .next (branch (s.cpu.c) o s)

/-- BEQ (R246). -/
def opBeq (o : Byte) (s : State) : Host.Outcome State Fault Refusal := .next (branch (s.cpu.z) o s)

/-- BNE (R247). -/
def opBne (o : Byte) (s : State) : Host.Outcome State Fault Refusal := .next (branch (!s.cpu.z) o s)

/-- BMI (R248). -/
def opBmi (o : Byte) (s : State) : Host.Outcome State Fault Refusal := .next (branch (s.cpu.n) o s)

/-- BPL (R249). -/
def opBpl (o : Byte) (s : State) : Host.Outcome State Fault Refusal := .next (branch (!s.cpu.n) o s)

/-- BVC (R250). -/
def opBvc (o : Byte) (s : State) : Host.Outcome State Fault Refusal := .next (branch (!s.cpu.v) o s)

/-- BVS (R251). -/
def opBvs (o : Byte) (s : State) : Host.Outcome State Fault Refusal := .next (branch (s.cpu.v) o s)

/-- 0x10: BPL rel (R249). -/
def execBplRel (o : Byte) (s : State) : Host.Outcome State Fault Refusal := opBpl o s

/-- 0x20: JSR abs (R241). -/
def execJsrAbs (l : Byte) (s : State) : Host.Outcome State Fault Refusal := opJsr l s

/-- 0x30: BMI rel (R248). -/
def execBmiRel (o : Byte) (s : State) : Host.Outcome State Fault Refusal := opBmi o s

/-- 0x4C: JMP abs (R240). -/
def execJmpAbs (l h : Byte) (s : State) : Host.Outcome State Fault Refusal := opJmp l h s

/-- 0x50: BVC rel (R250). -/
def execBvcRel (o : Byte) (s : State) : Host.Outcome State Fault Refusal := opBvc o s

/-- 0x60: RTS imp (R242). -/
def execRts (s : State) : Host.Outcome State Fault Refusal := opRts s

/-- 0x6C: JMP ind (R240). -/
def execJmpInd (l h : Byte) (s : State) : Host.Outcome State Fault Refusal := opJmpInd l h s

/-- 0x70: BVS rel (R251). -/
def execBvsRel (o : Byte) (s : State) : Host.Outcome State Fault Refusal := opBvs o s

/-- 0x90: BCC rel (R244). -/
def execBccRel (o : Byte) (s : State) : Host.Outcome State Fault Refusal := opBcc o s

/-- 0xB0: BCS rel (R245). -/
def execBcsRel (o : Byte) (s : State) : Host.Outcome State Fault Refusal := opBcs o s

/-- 0xD0: BNE rel (R247). -/
def execBneRel (o : Byte) (s : State) : Host.Outcome State Fault Refusal := opBne o s

/-- 0xF0: BEQ rel (R246). -/
def execBeqRel (o : Byte) (s : State) : Host.Outcome State Fault Refusal := opBeq o s

end Sys2Proof.Machine
end

