-- ==== Sys2Proof/Machine/IncShift.lean ====
section
/-! DEFINITION. Increments, decrements, shifts and rotates (spec/43_incdec_shift.md). One shared operation per mnemonic, one meaning per opcode. -/

namespace Sys2Proof.Machine

/-- INC (R220) of a byte in memory. -/
def opInc (m : MemOperand) (s : State) : Host.Outcome State Fault Refusal := .next (modifyOperand Cpu.inc m s)

/-- DEC (R221) of a byte in memory. -/
def opDec (m : MemOperand) (s : State) : Host.Outcome State Fault Refusal := .next (modifyOperand Cpu.dec m s)

/-- INX (R222). -/
def opInx (s : State) : Host.Outcome State Fault Refusal := .next (implied (fun c => c.loadX (c.x + 1)) s)

/-- INY (R223). -/
def opIny (s : State) : Host.Outcome State Fault Refusal := .next (implied (fun c => c.loadY (c.y + 1)) s)

/-- DEX (R224). -/
def opDex (s : State) : Host.Outcome State Fault Refusal := .next (implied (fun c => c.loadX (c.x - 1)) s)

/-- DEY (R225). -/
def opDey (s : State) : Host.Outcome State Fault Refusal := .next (implied (fun c => c.loadY (c.y - 1)) s)

/-- ASL (R226) of a byte in memory. -/
def opAsl (m : MemOperand) (s : State) : Host.Outcome State Fault Refusal := .next (modifyOperand Cpu.asl m s)

/-- ASL (R226) of the accumulator. -/
def opAslAcc (s : State) : Host.Outcome State Fault Refusal := .next (modifyAcc Cpu.asl s)

/-- LSR (R227) of a byte in memory. -/
def opLsr (m : MemOperand) (s : State) : Host.Outcome State Fault Refusal := .next (modifyOperand Cpu.lsr m s)

/-- LSR (R227) of the accumulator. -/
def opLsrAcc (s : State) : Host.Outcome State Fault Refusal := .next (modifyAcc Cpu.lsr s)

/-- ROL (R228) of a byte in memory. -/
def opRol (m : MemOperand) (s : State) : Host.Outcome State Fault Refusal := .next (modifyOperand Cpu.rol m s)

/-- ROL (R228) of the accumulator. -/
def opRolAcc (s : State) : Host.Outcome State Fault Refusal := .next (modifyAcc Cpu.rol s)

/-- ROR (R229) of a byte in memory. -/
def opRor (m : MemOperand) (s : State) : Host.Outcome State Fault Refusal := .next (modifyOperand Cpu.ror m s)

/-- ROR (R229) of the accumulator. -/
def opRorAcc (s : State) : Host.Outcome State Fault Refusal := .next (modifyAcc Cpu.ror s)

/-- 0x06: ASL zp (R226). -/
def execAslZp (z : Byte) (s : State) : Host.Outcome State Fault Refusal := opAsl (.zp z) s

/-- 0x0A: ASL acc (R226). -/
def execAslAcc (s : State) : Host.Outcome State Fault Refusal := opAslAcc s

/-- 0x0E: ASL abs (R226). -/
def execAslAbs (l h : Byte) (s : State) : Host.Outcome State Fault Refusal := opAsl (.abs l h) s

/-- 0x16: ASL zpx (R226). -/
def execAslZpx (z : Byte) (s : State) : Host.Outcome State Fault Refusal := opAsl (.zpx z) s

/-- 0x1E: ASL abx (R226). -/
def execAslAbx (l h : Byte) (s : State) : Host.Outcome State Fault Refusal := opAsl (.abx l h) s

/-- 0x26: ROL zp (R228). -/
def execRolZp (z : Byte) (s : State) : Host.Outcome State Fault Refusal := opRol (.zp z) s

/-- 0x2A: ROL acc (R228). -/
def execRolAcc (s : State) : Host.Outcome State Fault Refusal := opRolAcc s

/-- 0x2E: ROL abs (R228). -/
def execRolAbs (l h : Byte) (s : State) : Host.Outcome State Fault Refusal := opRol (.abs l h) s

/-- 0x36: ROL zpx (R228). -/
def execRolZpx (z : Byte) (s : State) : Host.Outcome State Fault Refusal := opRol (.zpx z) s

/-- 0x3E: ROL abx (R228). -/
def execRolAbx (l h : Byte) (s : State) : Host.Outcome State Fault Refusal := opRol (.abx l h) s

/-- 0x46: LSR zp (R227). -/
def execLsrZp (z : Byte) (s : State) : Host.Outcome State Fault Refusal := opLsr (.zp z) s

/-- 0x4A: LSR acc (R227). -/
def execLsrAcc (s : State) : Host.Outcome State Fault Refusal := opLsrAcc s

/-- 0x4E: LSR abs (R227). -/
def execLsrAbs (l h : Byte) (s : State) : Host.Outcome State Fault Refusal := opLsr (.abs l h) s

/-- 0x56: LSR zpx (R227). -/
def execLsrZpx (z : Byte) (s : State) : Host.Outcome State Fault Refusal := opLsr (.zpx z) s

/-- 0x5E: LSR abx (R227). -/
def execLsrAbx (l h : Byte) (s : State) : Host.Outcome State Fault Refusal := opLsr (.abx l h) s

/-- 0x66: ROR zp (R229). -/
def execRorZp (z : Byte) (s : State) : Host.Outcome State Fault Refusal := opRor (.zp z) s

/-- 0x6A: ROR acc (R229). -/
def execRorAcc (s : State) : Host.Outcome State Fault Refusal := opRorAcc s

/-- 0x6E: ROR abs (R229). -/
def execRorAbs (l h : Byte) (s : State) : Host.Outcome State Fault Refusal := opRor (.abs l h) s

/-- 0x76: ROR zpx (R229). -/
def execRorZpx (z : Byte) (s : State) : Host.Outcome State Fault Refusal := opRor (.zpx z) s

/-- 0x7E: ROR abx (R229). -/
def execRorAbx (l h : Byte) (s : State) : Host.Outcome State Fault Refusal := opRor (.abx l h) s

/-- 0x88: DEY imp (R225). -/
def execDey (s : State) : Host.Outcome State Fault Refusal := opDey s

/-- 0xC6: DEC zp (R221). -/
def execDecZp (z : Byte) (s : State) : Host.Outcome State Fault Refusal := opDec (.zp z) s

/-- 0xC8: INY imp (R223). -/
def execIny (s : State) : Host.Outcome State Fault Refusal := opIny s

/-- 0xCA: DEX imp (R224). -/
def execDex (s : State) : Host.Outcome State Fault Refusal := opDex s

/-- 0xCE: DEC abs (R221). -/
def execDecAbs (l h : Byte) (s : State) : Host.Outcome State Fault Refusal := opDec (.abs l h) s

/-- 0xD6: DEC zpx (R221). -/
def execDecZpx (z : Byte) (s : State) : Host.Outcome State Fault Refusal := opDec (.zpx z) s

/-- 0xDE: DEC abx (R221). -/
def execDecAbx (l h : Byte) (s : State) : Host.Outcome State Fault Refusal := opDec (.abx l h) s

/-- 0xE6: INC zp (R220). -/
def execIncZp (z : Byte) (s : State) : Host.Outcome State Fault Refusal := opInc (.zp z) s

/-- 0xE8: INX imp (R222). -/
def execInx (s : State) : Host.Outcome State Fault Refusal := opInx s

/-- 0xEE: INC abs (R220). -/
def execIncAbs (l h : Byte) (s : State) : Host.Outcome State Fault Refusal := opInc (.abs l h) s

/-- 0xF6: INC zpx (R220). -/
def execIncZpx (z : Byte) (s : State) : Host.Outcome State Fault Refusal := opInc (.zpx z) s

/-- 0xFE: INC abx (R220). -/
def execIncAbx (l h : Byte) (s : State) : Host.Outcome State Fault Refusal := opInc (.abx l h) s

end Sys2Proof.Machine
end

