-- ==== Sys2Proof/Machine/LoadStore.lean ====
section
/-! DEFINITION. Loads, stores and register transfers (spec/40_load_store_transfer.md). One shared operation per mnemonic, one meaning per opcode. -/

namespace Sys2Proof.Machine

/-- LDA (R171). -/
def opLda (x : Src) (s : State) : Host.Outcome State Fault Refusal := .next (readOperand Cpu.loadA x s)

/-- LDX (R172). -/
def opLdx (x : Src) (s : State) : Host.Outcome State Fault Refusal := .next (readOperand Cpu.loadX x s)

/-- LDY (R173). -/
def opLdy (x : Src) (s : State) : Host.Outcome State Fault Refusal := .next (readOperand Cpu.loadY x s)

/-- STA (R174). -/
def opSta (m : MemOperand) (s : State) : Host.Outcome State Fault Refusal := .next (storeOperand Cpu.a m s)

/-- STX (R175). -/
def opStx (m : MemOperand) (s : State) : Host.Outcome State Fault Refusal := .next (storeOperand Cpu.x m s)

/-- STY (R176). -/
def opSty (m : MemOperand) (s : State) : Host.Outcome State Fault Refusal := .next (storeOperand Cpu.y m s)

/-- TAX (R177). -/
def opTax (s : State) : Host.Outcome State Fault Refusal := .next (implied (fun c => c.loadX c.a) s)

/-- TAY (R178). -/
def opTay (s : State) : Host.Outcome State Fault Refusal := .next (implied (fun c => c.loadY c.a) s)

/-- TXA (R179). -/
def opTxa (s : State) : Host.Outcome State Fault Refusal := .next (implied (fun c => c.loadA c.x) s)

/-- TYA (R180). -/
def opTya (s : State) : Host.Outcome State Fault Refusal := .next (implied (fun c => c.loadA c.y) s)

/-- TSX (R181). -/
def opTsx (s : State) : Host.Outcome State Fault Refusal := .next (implied (fun c => c.loadX c.s) s)

/-- TXS (R182). -/
def opTxs (s : State) : Host.Outcome State Fault Refusal := .next (implied (fun c => { c with s := c.x }) s)

/-- 0x81: STA izx (R174). -/
def execStaIzx (z : Byte) (s : State) : Host.Outcome State Fault Refusal := opSta (.izx z) s

/-- 0x84: STY zp (R176). -/
def execStyZp (z : Byte) (s : State) : Host.Outcome State Fault Refusal := opSty (.zp z) s

/-- 0x85: STA zp (R174). -/
def execStaZp (z : Byte) (s : State) : Host.Outcome State Fault Refusal := opSta (.zp z) s

/-- 0x86: STX zp (R175). -/
def execStxZp (z : Byte) (s : State) : Host.Outcome State Fault Refusal := opStx (.zp z) s

/-- 0x8A: TXA imp (R179). -/
def execTxa (s : State) : Host.Outcome State Fault Refusal := opTxa s

/-- 0x8C: STY abs (R176). -/
def execStyAbs (l h : Byte) (s : State) : Host.Outcome State Fault Refusal := opSty (.abs l h) s

/-- 0x8D: STA abs (R174). -/
def execStaAbs (l h : Byte) (s : State) : Host.Outcome State Fault Refusal := opSta (.abs l h) s

/-- 0x8E: STX abs (R175). -/
def execStxAbs (l h : Byte) (s : State) : Host.Outcome State Fault Refusal := opStx (.abs l h) s

/-- 0x91: STA izy (R174). -/
def execStaIzy (z : Byte) (s : State) : Host.Outcome State Fault Refusal := opSta (.izy z) s

/-- 0x94: STY zpx (R176). -/
def execStyZpx (z : Byte) (s : State) : Host.Outcome State Fault Refusal := opSty (.zpx z) s

/-- 0x95: STA zpx (R174). -/
def execStaZpx (z : Byte) (s : State) : Host.Outcome State Fault Refusal := opSta (.zpx z) s

/-- 0x96: STX zpy (R175). -/
def execStxZpy (z : Byte) (s : State) : Host.Outcome State Fault Refusal := opStx (.zpy z) s

/-- 0x98: TYA imp (R180). -/
def execTya (s : State) : Host.Outcome State Fault Refusal := opTya s

/-- 0x99: STA aby (R174). -/
def execStaAby (l h : Byte) (s : State) : Host.Outcome State Fault Refusal := opSta (.aby l h) s

/-- 0x9A: TXS imp (R182). -/
def execTxs (s : State) : Host.Outcome State Fault Refusal := opTxs s

/-- 0x9D: STA abx (R174). -/
def execStaAbx (l h : Byte) (s : State) : Host.Outcome State Fault Refusal := opSta (.abx l h) s

/-- 0xA0: LDY imm (R173). -/
def execLdyImm (d : Byte) (s : State) : Host.Outcome State Fault Refusal := opLdy (.imm d) s

/-- 0xA1: LDA izx (R171). -/
def execLdaIzx (z : Byte) (s : State) : Host.Outcome State Fault Refusal := opLda (.mem (.izx z)) s

/-- 0xA2: LDX imm (R172). -/
def execLdxImm (d : Byte) (s : State) : Host.Outcome State Fault Refusal := opLdx (.imm d) s

/-- 0xA4: LDY zp (R173). -/
def execLdyZp (z : Byte) (s : State) : Host.Outcome State Fault Refusal := opLdy (.mem (.zp z)) s

/-- 0xA5: LDA zp (R171). -/
def execLdaZp (z : Byte) (s : State) : Host.Outcome State Fault Refusal := opLda (.mem (.zp z)) s

/-- 0xA6: LDX zp (R172). -/
def execLdxZp (z : Byte) (s : State) : Host.Outcome State Fault Refusal := opLdx (.mem (.zp z)) s

/-- 0xA8: TAY imp (R178). -/
def execTay (s : State) : Host.Outcome State Fault Refusal := opTay s

/-- 0xA9: LDA imm (R171). -/
def execLdaImm (d : Byte) (s : State) : Host.Outcome State Fault Refusal := opLda (.imm d) s

/-- 0xAA: TAX imp (R177). -/
def execTax (s : State) : Host.Outcome State Fault Refusal := opTax s

/-- 0xAC: LDY abs (R173). -/
def execLdyAbs (l h : Byte) (s : State) : Host.Outcome State Fault Refusal := opLdy (.mem (.abs l h)) s

/-- 0xAD: LDA abs (R171). -/
def execLdaAbs (l h : Byte) (s : State) : Host.Outcome State Fault Refusal := opLda (.mem (.abs l h)) s

/-- 0xAE: LDX abs (R172). -/
def execLdxAbs (l h : Byte) (s : State) : Host.Outcome State Fault Refusal := opLdx (.mem (.abs l h)) s

/-- 0xB1: LDA izy (R171). -/
def execLdaIzy (z : Byte) (s : State) : Host.Outcome State Fault Refusal := opLda (.mem (.izy z)) s

/-- 0xB4: LDY zpx (R173). -/
def execLdyZpx (z : Byte) (s : State) : Host.Outcome State Fault Refusal := opLdy (.mem (.zpx z)) s

/-- 0xB5: LDA zpx (R171). -/
def execLdaZpx (z : Byte) (s : State) : Host.Outcome State Fault Refusal := opLda (.mem (.zpx z)) s

/-- 0xB6: LDX zpy (R172). -/
def execLdxZpy (z : Byte) (s : State) : Host.Outcome State Fault Refusal := opLdx (.mem (.zpy z)) s

/-- 0xB9: LDA aby (R171). -/
def execLdaAby (l h : Byte) (s : State) : Host.Outcome State Fault Refusal := opLda (.mem (.aby l h)) s

/-- 0xBA: TSX imp (R181). -/
def execTsx (s : State) : Host.Outcome State Fault Refusal := opTsx s

/-- 0xBC: LDY abx (R173). -/
def execLdyAbx (l h : Byte) (s : State) : Host.Outcome State Fault Refusal := opLdy (.mem (.abx l h)) s

/-- 0xBD: LDA abx (R171). -/
def execLdaAbx (l h : Byte) (s : State) : Host.Outcome State Fault Refusal := opLda (.mem (.abx l h)) s

/-- 0xBE: LDX aby (R172). -/
def execLdxAby (l h : Byte) (s : State) : Host.Outcome State Fault Refusal := opLdx (.mem (.aby l h)) s

end Sys2Proof.Machine
end

