-- ==== Sys2Proof/Machine/Stack.lean ====
section
/-! DEFINITION. The stack instructions (spec/41_stack.md). One shared operation per mnemonic, one meaning per opcode. -/

namespace Sys2Proof.Machine

/-- PHA (R190): dummy read, push A. -/
def opPha (s : State) : Host.Outcome State Fault Refusal :=
  let s := dummyRead s.cpu.pc s
  .next (push s.cpu.a s)

/-- PHP (R191): dummy read, push the flags with B = 1. -/
def opPhp (s : State) : Host.Outcome State Fault Refusal :=
  let s := dummyRead s.cpu.pc s
  .next (push (s.cpu.pByte true) s)

/-- PLA (R192): two dummy reads, pull A. -/
def opPla (s : State) : Host.Outcome State Fault Refusal :=
  let r := pull (dummyStack (dummyRead s.cpu.pc s))
  .next (r.2.mapCpu (Cpu.loadA r.1))

/-- PLP (R193): two dummy reads, pull the flags. -/
def opPlp (s : State) : Host.Outcome State Fault Refusal :=
  let r := pull (dummyStack (dummyRead s.cpu.pc s))
  .next (r.2.mapCpu (Cpu.setP r.1))

/-- 0x08: PHP imp (R191). -/
def execPhp (s : State) : Host.Outcome State Fault Refusal := opPhp s

/-- 0x28: PLP imp (R193). -/
def execPlp (s : State) : Host.Outcome State Fault Refusal := opPlp s

/-- 0x48: PHA imp (R190). -/
def execPha (s : State) : Host.Outcome State Fault Refusal := opPha s

/-- 0x68: PLA imp (R192). -/
def execPla (s : State) : Host.Outcome State Fault Refusal := opPla s

end Sys2Proof.Machine
end

