-- ==== Sys2Proof/Machine/System.lean ====
section
/-! DEFINITION. Flag instructions, NOP, BRK and RTI (spec/45_flags_system.md). One shared operation per mnemonic, one meaning per opcode. -/

namespace Sys2Proof.Machine

/-- CLC (R260). -/
def opClc (s : State) : Host.Outcome State Fault Refusal := .next (implied (fun c => { c with c := false }) s)

/-- SEC (R261). -/
def opSec (s : State) : Host.Outcome State Fault Refusal := .next (implied (fun c => { c with c := true }) s)

/-- CLI (R262). -/
def opCli (s : State) : Host.Outcome State Fault Refusal := .next (implied (fun c => { c with i := false }) s)

/-- SEI (R263). -/
def opSei (s : State) : Host.Outcome State Fault Refusal := .next (implied (fun c => { c with i := true }) s)

/-- CLD (R264). -/
def opCld (s : State) : Host.Outcome State Fault Refusal := .next (implied (fun c => { c with d := false }) s)

/-- SED (R265). -/
def opSed (s : State) : Host.Outcome State Fault Refusal := .next (implied (fun c => { c with d := true }) s)

/-- CLV (R266). -/
def opClv (s : State) : Host.Outcome State Fault Refusal := .next (implied (fun c => { c with v := false }) s)

/-- NOP (R267). -/
def opNop (s : State) : Host.Outcome State Fault Refusal := .next (implied (id) s)

/-- BRK (R268): the padding byte is fetched and discarded, then the exception is taken through the IRQ/BRK vector with B = 1. -/
def opBrk (s : State) : Host.Outcome State Fault Refusal := .next (takeException 0xFFFE true (fetch s).2)

/-- RTI (R269): two dummy reads, then the return from an exception. -/
def opRti (s : State) : Host.Outcome State Fault Refusal := .next (returnFromException (dummyStack (dummyRead s.cpu.pc s)))

/-- 0x00: BRK imp (R268). -/
def execBrk (s : State) : Host.Outcome State Fault Refusal := opBrk s

/-- 0x18: CLC imp (R260). -/
def execClc (s : State) : Host.Outcome State Fault Refusal := opClc s

/-- 0x38: SEC imp (R261). -/
def execSec (s : State) : Host.Outcome State Fault Refusal := opSec s

/-- 0x40: RTI imp (R269). -/
def execRti (s : State) : Host.Outcome State Fault Refusal := opRti s

/-- 0x58: CLI imp (R262). -/
def execCli (s : State) : Host.Outcome State Fault Refusal := opCli s

/-- 0x78: SEI imp (R263). -/
def execSei (s : State) : Host.Outcome State Fault Refusal := opSei s

/-- 0xB8: CLV imp (R266). -/
def execClv (s : State) : Host.Outcome State Fault Refusal := opClv s

/-- 0xD8: CLD imp (R264). -/
def execCld (s : State) : Host.Outcome State Fault Refusal := opCld s

/-- 0xEA: NOP imp (R267). -/
def execNop (s : State) : Host.Outcome State Fault Refusal := opNop s

/-- 0xF8: SED imp (R265). -/
def execSed (s : State) : Host.Outcome State Fault Refusal := opSed s

end Sys2Proof.Machine
end

