-- ==== Sys2Proof/Machine/Unofficial.lean ====
section
/-! DEFINITION. The unofficial opcodes (spec/46_unofficial.md): each has its documented behaviour and, under
`UNOFFICIAL = nop`, the no-operation policy of R312; JAM is the same in both settings (R311). -/

namespace Sys2Proof.Machine

/-- The diagnostic of an unofficial opcode whose instruction has `n` bytes, all of them fetched (R311, R312). -/
def illegalOpcode (op : Byte) (n : Nat) (pc : Addr) : Diagnostic := .illegalOpcode op (pc - BitVec.ofNat 16 n)

/-- The accesses of a read-class no-operation of a form (R312; R301 to R306). -/
def nopAccesses (f : Form) (s : State) : State :=
  match f with
  | .src x => (readSrc x s).2
  | _ => dummyRead s.cpu.pc s

/-- The no-operation policy for instruction `i` (R312). -/
def nopPolicy (i : Instr) (s : State) : Host.Outcome State Fault Refusal :=
  .next ((nopAccesses i.form s).log (illegalOpcode i.opcode (instrLength i.opcode) s.cpu.pc))

/-- An unofficial instruction `i` with the documented behaviour `doc` (spec/00_scope.md R9). -/
def unofficial (i : Instr) (doc : State → Host.Outcome State Fault Refusal) (s : State) : Host.Outcome State Fault Refusal :=
  match s.cfg.unofficial with
  | .documented => doc s
  | .nop => nopPolicy i s

/-- JAM (R311): a dummy read and a diagnostic; execution continues. The ghost `jamSeen` marks that a hardware processor would hang
here (log 21). -/
def opJam (op : Byte) (s : State) : Host.Outcome State Fault Refusal :=
  let t := (dummyRead s.cpu.pc s).log (illegalOpcode op 1 s.cpu.pc)
  .next { t with jamSeen := true }

/-- The unofficial NOPs under the documented behaviour (R301 to R306). -/
def opNopU (f : Form) (s : State) : Host.Outcome State Fault Refusal := .next (nopAccesses f s)

/-- SLO (R281) of a byte in memory. -/
def opSlo (m : MemOperand) (s : State) : Host.Outcome State Fault Refusal := .next (modifyOperand Cpu.slo m s)

/-- RLA (R282) of a byte in memory. -/
def opRla (m : MemOperand) (s : State) : Host.Outcome State Fault Refusal := .next (modifyOperand Cpu.rla m s)

/-- SRE (R283) of a byte in memory. -/
def opSre (m : MemOperand) (s : State) : Host.Outcome State Fault Refusal := .next (modifyOperand Cpu.sre m s)

/-- RRA (R284) of a byte in memory. -/
def opRra (m : MemOperand) (s : State) : Host.Outcome State Fault Refusal := .next (modifyOperand Cpu.rra m s)

/-- DCP (R287) of a byte in memory. -/
def opDcp (m : MemOperand) (s : State) : Host.Outcome State Fault Refusal := .next (modifyOperand Cpu.dcp m s)

/-- ISC (R288) of a byte in memory. -/
def opIsc (m : MemOperand) (s : State) : Host.Outcome State Fault Refusal := .next (modifyOperand Cpu.isc m s)

/-- SAX (R285). -/
def opSax (m : MemOperand) (s : State) : Host.Outcome State Fault Refusal := .next (storeOperand (fun c => c.a &&& c.x) m s)

/-- LAX (R286). -/
def opLax (x : Src) (s : State) : Host.Outcome State Fault Refusal := .next (readOperand Cpu.lax x s)

/-- LAS (R300). -/
def opLas (x : Src) (s : State) : Host.Outcome State Fault Refusal := .next (readOperand Cpu.las x s)

/-- ANC (R289). -/
def opAnc (x : Src) (s : State) : Host.Outcome State Fault Refusal := .next (readOperand Cpu.anc x s)

/-- ALR (R290). -/
def opAlr (x : Src) (s : State) : Host.Outcome State Fault Refusal := .next (readOperand Cpu.alr x s)

/-- ARR (R291). -/
def opArr (x : Src) (s : State) : Host.Outcome State Fault Refusal := .next (readOperand Cpu.arr x s)

/-- AXS (R292). -/
def opAxs (x : Src) (s : State) : Host.Outcome State Fault Refusal := .next (readOperand Cpu.axs x s)

/-- XAA (R294). -/
def opXaa (x : Src) (s : State) : Host.Outcome State Fault Refusal := .next (readOperand (Cpu.xaa s.cfg.magicXaa) x s)

/-- LXA (R295). -/
def opLxa (x : Src) (s : State) : Host.Outcome State Fault Refusal := .next (readOperand (Cpu.lxa s.cfg.magicLxa) x s)

/-- SHA absolute,Y (R296). -/
def opShaAby (l h : Byte) (s : State) : Host.Outcome State Fault Refusal := .next (storeHigh (s.cpu.a &&& s.cpu.x) (word h l) s.cpu.y s)

/-- SHA (indirect),Y (R296): `h` is the pointer's high byte. -/
def opShaIzy (z : Byte) (s : State) : Host.Outcome State Fault Refusal :=
  let p := zpPointer z s
  .next (storeHigh (s.cpu.a &&& s.cpu.x) p.1 s.cpu.y p.2)

/-- SHY (R297). -/
def opShy (l h : Byte) (s : State) : Host.Outcome State Fault Refusal := .next (storeHigh s.cpu.y (word h l) s.cpu.x s)

/-- SHX (R298). -/
def opShx (l h : Byte) (s : State) : Host.Outcome State Fault Refusal := .next (storeHigh s.cpu.x (word h l) s.cpu.y s)

/-- TAS (R299). -/
def opTas (l h : Byte) (s : State) : Host.Outcome State Fault Refusal :=
  let v := s.cpu.a &&& s.cpu.x
  .next (storeHigh v (word h l) s.cpu.y (s.setS v))

/-- 0x02: *JAM imp (R311). -/
def execJam02 (s : State) : Host.Outcome State Fault Refusal := opJam 0x02 s

/-- 0x03: *SLO izx (R281). -/
def execSloIzx (z : Byte) (s : State) : Host.Outcome State Fault Refusal := unofficial (.sloIzx z) (opSlo (.izx z)) s

/-- 0x04: *NOP zp (R303). -/
def execNopZp04 (z : Byte) (s : State) : Host.Outcome State Fault Refusal := unofficial (.nopZp04 z) (opNopU (.src (.mem (.zp z)))) s

/-- 0x07: *SLO zp (R281). -/
def execSloZp (z : Byte) (s : State) : Host.Outcome State Fault Refusal := unofficial (.sloZp z) (opSlo (.zp z)) s

/-- 0x0B: *ANC imm (R289). -/
def execAncImm0B (d : Byte) (s : State) : Host.Outcome State Fault Refusal := unofficial (.ancImm0B d) (opAnc (.imm d)) s

/-- 0x0C: *NOP abs (R305). -/
def execNopAbs0C (l h : Byte) (s : State) : Host.Outcome State Fault Refusal := unofficial (.nopAbs0C l h) (opNopU (.src (.mem (.abs l h)))) s

/-- 0x0F: *SLO abs (R281). -/
def execSloAbs (l h : Byte) (s : State) : Host.Outcome State Fault Refusal := unofficial (.sloAbs l h) (opSlo (.abs l h)) s

/-- 0x12: *JAM imp (R311). -/
def execJam12 (s : State) : Host.Outcome State Fault Refusal := opJam 0x12 s

/-- 0x13: *SLO izy (R281). -/
def execSloIzy (z : Byte) (s : State) : Host.Outcome State Fault Refusal := unofficial (.sloIzy z) (opSlo (.izy z)) s

/-- 0x14: *NOP zpx (R304). -/
def execNopZpx14 (z : Byte) (s : State) : Host.Outcome State Fault Refusal := unofficial (.nopZpx14 z) (opNopU (.src (.mem (.zpx z)))) s

/-- 0x17: *SLO zpx (R281). -/
def execSloZpx (z : Byte) (s : State) : Host.Outcome State Fault Refusal := unofficial (.sloZpx z) (opSlo (.zpx z)) s

/-- 0x1A: *NOP imp (R301). -/
def execNop1A (s : State) : Host.Outcome State Fault Refusal := unofficial .nop1A (opNopU .imp) s

/-- 0x1B: *SLO aby (R281). -/
def execSloAby (l h : Byte) (s : State) : Host.Outcome State Fault Refusal := unofficial (.sloAby l h) (opSlo (.aby l h)) s

/-- 0x1C: *NOP abx (R306). -/
def execNopAbx1C (l h : Byte) (s : State) : Host.Outcome State Fault Refusal := unofficial (.nopAbx1C l h) (opNopU (.src (.mem (.abx l h)))) s

/-- 0x1F: *SLO abx (R281). -/
def execSloAbx (l h : Byte) (s : State) : Host.Outcome State Fault Refusal := unofficial (.sloAbx l h) (opSlo (.abx l h)) s

/-- 0x22: *JAM imp (R311). -/
def execJam22 (s : State) : Host.Outcome State Fault Refusal := opJam 0x22 s

/-- 0x23: *RLA izx (R282). -/
def execRlaIzx (z : Byte) (s : State) : Host.Outcome State Fault Refusal := unofficial (.rlaIzx z) (opRla (.izx z)) s

/-- 0x27: *RLA zp (R282). -/
def execRlaZp (z : Byte) (s : State) : Host.Outcome State Fault Refusal := unofficial (.rlaZp z) (opRla (.zp z)) s

/-- 0x2B: *ANC imm (R289). -/
def execAncImm2B (d : Byte) (s : State) : Host.Outcome State Fault Refusal := unofficial (.ancImm2B d) (opAnc (.imm d)) s

/-- 0x2F: *RLA abs (R282). -/
def execRlaAbs (l h : Byte) (s : State) : Host.Outcome State Fault Refusal := unofficial (.rlaAbs l h) (opRla (.abs l h)) s

/-- 0x32: *JAM imp (R311). -/
def execJam32 (s : State) : Host.Outcome State Fault Refusal := opJam 0x32 s

/-- 0x33: *RLA izy (R282). -/
def execRlaIzy (z : Byte) (s : State) : Host.Outcome State Fault Refusal := unofficial (.rlaIzy z) (opRla (.izy z)) s

/-- 0x34: *NOP zpx (R304). -/
def execNopZpx34 (z : Byte) (s : State) : Host.Outcome State Fault Refusal := unofficial (.nopZpx34 z) (opNopU (.src (.mem (.zpx z)))) s

/-- 0x37: *RLA zpx (R282). -/
def execRlaZpx (z : Byte) (s : State) : Host.Outcome State Fault Refusal := unofficial (.rlaZpx z) (opRla (.zpx z)) s

/-- 0x3A: *NOP imp (R301). -/
def execNop3A (s : State) : Host.Outcome State Fault Refusal := unofficial .nop3A (opNopU .imp) s

/-- 0x3B: *RLA aby (R282). -/
def execRlaAby (l h : Byte) (s : State) : Host.Outcome State Fault Refusal := unofficial (.rlaAby l h) (opRla (.aby l h)) s

/-- 0x3C: *NOP abx (R306). -/
def execNopAbx3C (l h : Byte) (s : State) : Host.Outcome State Fault Refusal := unofficial (.nopAbx3C l h) (opNopU (.src (.mem (.abx l h)))) s

/-- 0x3F: *RLA abx (R282). -/
def execRlaAbx (l h : Byte) (s : State) : Host.Outcome State Fault Refusal := unofficial (.rlaAbx l h) (opRla (.abx l h)) s

/-- 0x42: *JAM imp (R311). -/
def execJam42 (s : State) : Host.Outcome State Fault Refusal := opJam 0x42 s

/-- 0x43: *SRE izx (R283). -/
def execSreIzx (z : Byte) (s : State) : Host.Outcome State Fault Refusal := unofficial (.sreIzx z) (opSre (.izx z)) s

/-- 0x44: *NOP zp (R303). -/
def execNopZp44 (z : Byte) (s : State) : Host.Outcome State Fault Refusal := unofficial (.nopZp44 z) (opNopU (.src (.mem (.zp z)))) s

/-- 0x47: *SRE zp (R283). -/
def execSreZp (z : Byte) (s : State) : Host.Outcome State Fault Refusal := unofficial (.sreZp z) (opSre (.zp z)) s

/-- 0x4B: *ALR imm (R290). -/
def execAlrImm (d : Byte) (s : State) : Host.Outcome State Fault Refusal := unofficial (.alrImm d) (opAlr (.imm d)) s

/-- 0x4F: *SRE abs (R283). -/
def execSreAbs (l h : Byte) (s : State) : Host.Outcome State Fault Refusal := unofficial (.sreAbs l h) (opSre (.abs l h)) s

/-- 0x52: *JAM imp (R311). -/
def execJam52 (s : State) : Host.Outcome State Fault Refusal := opJam 0x52 s

/-- 0x53: *SRE izy (R283). -/
def execSreIzy (z : Byte) (s : State) : Host.Outcome State Fault Refusal := unofficial (.sreIzy z) (opSre (.izy z)) s

/-- 0x54: *NOP zpx (R304). -/
def execNopZpx54 (z : Byte) (s : State) : Host.Outcome State Fault Refusal := unofficial (.nopZpx54 z) (opNopU (.src (.mem (.zpx z)))) s

/-- 0x57: *SRE zpx (R283). -/
def execSreZpx (z : Byte) (s : State) : Host.Outcome State Fault Refusal := unofficial (.sreZpx z) (opSre (.zpx z)) s

/-- 0x5A: *NOP imp (R301). -/
def execNop5A (s : State) : Host.Outcome State Fault Refusal := unofficial .nop5A (opNopU .imp) s

/-- 0x5B: *SRE aby (R283). -/
def execSreAby (l h : Byte) (s : State) : Host.Outcome State Fault Refusal := unofficial (.sreAby l h) (opSre (.aby l h)) s

/-- 0x5C: *NOP abx (R306). -/
def execNopAbx5C (l h : Byte) (s : State) : Host.Outcome State Fault Refusal := unofficial (.nopAbx5C l h) (opNopU (.src (.mem (.abx l h)))) s

/-- 0x5F: *SRE abx (R283). -/
def execSreAbx (l h : Byte) (s : State) : Host.Outcome State Fault Refusal := unofficial (.sreAbx l h) (opSre (.abx l h)) s

/-- 0x62: *JAM imp (R311). -/
def execJam62 (s : State) : Host.Outcome State Fault Refusal := opJam 0x62 s

/-- 0x63: *RRA izx (R284). -/
def execRraIzx (z : Byte) (s : State) : Host.Outcome State Fault Refusal := unofficial (.rraIzx z) (opRra (.izx z)) s

/-- 0x64: *NOP zp (R303). -/
def execNopZp64 (z : Byte) (s : State) : Host.Outcome State Fault Refusal := unofficial (.nopZp64 z) (opNopU (.src (.mem (.zp z)))) s

/-- 0x67: *RRA zp (R284). -/
def execRraZp (z : Byte) (s : State) : Host.Outcome State Fault Refusal := unofficial (.rraZp z) (opRra (.zp z)) s

/-- 0x6B: *ARR imm (R291). -/
def execArrImm (d : Byte) (s : State) : Host.Outcome State Fault Refusal := unofficial (.arrImm d) (opArr (.imm d)) s

/-- 0x6F: *RRA abs (R284). -/
def execRraAbs (l h : Byte) (s : State) : Host.Outcome State Fault Refusal := unofficial (.rraAbs l h) (opRra (.abs l h)) s

/-- 0x72: *JAM imp (R311). -/
def execJam72 (s : State) : Host.Outcome State Fault Refusal := opJam 0x72 s

/-- 0x73: *RRA izy (R284). -/
def execRraIzy (z : Byte) (s : State) : Host.Outcome State Fault Refusal := unofficial (.rraIzy z) (opRra (.izy z)) s

/-- 0x74: *NOP zpx (R304). -/
def execNopZpx74 (z : Byte) (s : State) : Host.Outcome State Fault Refusal := unofficial (.nopZpx74 z) (opNopU (.src (.mem (.zpx z)))) s

/-- 0x77: *RRA zpx (R284). -/
def execRraZpx (z : Byte) (s : State) : Host.Outcome State Fault Refusal := unofficial (.rraZpx z) (opRra (.zpx z)) s

/-- 0x7A: *NOP imp (R301). -/
def execNop7A (s : State) : Host.Outcome State Fault Refusal := unofficial .nop7A (opNopU .imp) s

/-- 0x7B: *RRA aby (R284). -/
def execRraAby (l h : Byte) (s : State) : Host.Outcome State Fault Refusal := unofficial (.rraAby l h) (opRra (.aby l h)) s

/-- 0x7C: *NOP abx (R306). -/
def execNopAbx7C (l h : Byte) (s : State) : Host.Outcome State Fault Refusal := unofficial (.nopAbx7C l h) (opNopU (.src (.mem (.abx l h)))) s

/-- 0x7F: *RRA abx (R284). -/
def execRraAbx (l h : Byte) (s : State) : Host.Outcome State Fault Refusal := unofficial (.rraAbx l h) (opRra (.abx l h)) s

/-- 0x80: *NOP imm (R302). -/
def execNopImm80 (d : Byte) (s : State) : Host.Outcome State Fault Refusal := unofficial (.nopImm80 d) (opNopU (.src (.imm d))) s

/-- 0x82: *NOP imm (R302). -/
def execNopImm82 (d : Byte) (s : State) : Host.Outcome State Fault Refusal := unofficial (.nopImm82 d) (opNopU (.src (.imm d))) s

/-- 0x83: *SAX izx (R285). -/
def execSaxIzx (z : Byte) (s : State) : Host.Outcome State Fault Refusal := unofficial (.saxIzx z) (opSax (.izx z)) s

/-- 0x87: *SAX zp (R285). -/
def execSaxZp (z : Byte) (s : State) : Host.Outcome State Fault Refusal := unofficial (.saxZp z) (opSax (.zp z)) s

/-- 0x89: *NOP imm (R302). -/
def execNopImm89 (d : Byte) (s : State) : Host.Outcome State Fault Refusal := unofficial (.nopImm89 d) (opNopU (.src (.imm d))) s

/-- 0x8B: *XAA imm (R294). -/
def execXaaImm (d : Byte) (s : State) : Host.Outcome State Fault Refusal := unofficial (.xaaImm d) (opXaa (.imm d)) s

/-- 0x8F: *SAX abs (R285). -/
def execSaxAbs (l h : Byte) (s : State) : Host.Outcome State Fault Refusal := unofficial (.saxAbs l h) (opSax (.abs l h)) s

/-- 0x92: *JAM imp (R311). -/
def execJam92 (s : State) : Host.Outcome State Fault Refusal := opJam 0x92 s

/-- 0x93: *SHA izy (R296). -/
def execShaIzy (z : Byte) (s : State) : Host.Outcome State Fault Refusal := unofficial (.shaIzy z) (opShaIzy z) s

/-- 0x97: *SAX zpy (R285). -/
def execSaxZpy (z : Byte) (s : State) : Host.Outcome State Fault Refusal := unofficial (.saxZpy z) (opSax (.zpy z)) s

/-- 0x9B: *TAS aby (R299). -/
def execTasAby (l h : Byte) (s : State) : Host.Outcome State Fault Refusal := unofficial (.tasAby l h) (opTas l h) s

/-- 0x9C: *SHY abx (R297). -/
def execShyAbx (l h : Byte) (s : State) : Host.Outcome State Fault Refusal := unofficial (.shyAbx l h) (opShy l h) s

/-- 0x9E: *SHX aby (R298). -/
def execShxAby (l h : Byte) (s : State) : Host.Outcome State Fault Refusal := unofficial (.shxAby l h) (opShx l h) s

/-- 0x9F: *SHA aby (R296). -/
def execShaAby (l h : Byte) (s : State) : Host.Outcome State Fault Refusal := unofficial (.shaAby l h) (opShaAby l h) s

/-- 0xA3: *LAX izx (R286). -/
def execLaxIzx (z : Byte) (s : State) : Host.Outcome State Fault Refusal := unofficial (.laxIzx z) (opLax (.mem (.izx z))) s

/-- 0xA7: *LAX zp (R286). -/
def execLaxZp (z : Byte) (s : State) : Host.Outcome State Fault Refusal := unofficial (.laxZp z) (opLax (.mem (.zp z))) s

/-- 0xAB: *LXA imm (R295). -/
def execLxaImm (d : Byte) (s : State) : Host.Outcome State Fault Refusal := unofficial (.lxaImm d) (opLxa (.imm d)) s

/-- 0xAF: *LAX abs (R286). -/
def execLaxAbs (l h : Byte) (s : State) : Host.Outcome State Fault Refusal := unofficial (.laxAbs l h) (opLax (.mem (.abs l h))) s

/-- 0xB2: *JAM imp (R311). -/
def execJamB2 (s : State) : Host.Outcome State Fault Refusal := opJam 0xB2 s

/-- 0xB3: *LAX izy (R286). -/
def execLaxIzy (z : Byte) (s : State) : Host.Outcome State Fault Refusal := unofficial (.laxIzy z) (opLax (.mem (.izy z))) s

/-- 0xB7: *LAX zpy (R286). -/
def execLaxZpy (z : Byte) (s : State) : Host.Outcome State Fault Refusal := unofficial (.laxZpy z) (opLax (.mem (.zpy z))) s

/-- 0xBB: *LAS aby (R300). -/
def execLasAby (l h : Byte) (s : State) : Host.Outcome State Fault Refusal := unofficial (.lasAby l h) (opLas (.mem (.aby l h))) s

/-- 0xBF: *LAX aby (R286). -/
def execLaxAby (l h : Byte) (s : State) : Host.Outcome State Fault Refusal := unofficial (.laxAby l h) (opLax (.mem (.aby l h))) s

/-- 0xC2: *NOP imm (R302). -/
def execNopImmC2 (d : Byte) (s : State) : Host.Outcome State Fault Refusal := unofficial (.nopImmC2 d) (opNopU (.src (.imm d))) s

/-- 0xC3: *DCP izx (R287). -/
def execDcpIzx (z : Byte) (s : State) : Host.Outcome State Fault Refusal := unofficial (.dcpIzx z) (opDcp (.izx z)) s

/-- 0xC7: *DCP zp (R287). -/
def execDcpZp (z : Byte) (s : State) : Host.Outcome State Fault Refusal := unofficial (.dcpZp z) (opDcp (.zp z)) s

/-- 0xCB: *AXS imm (R292). -/
def execAxsImm (d : Byte) (s : State) : Host.Outcome State Fault Refusal := unofficial (.axsImm d) (opAxs (.imm d)) s

/-- 0xCF: *DCP abs (R287). -/
def execDcpAbs (l h : Byte) (s : State) : Host.Outcome State Fault Refusal := unofficial (.dcpAbs l h) (opDcp (.abs l h)) s

/-- 0xD2: *JAM imp (R311). -/
def execJamD2 (s : State) : Host.Outcome State Fault Refusal := opJam 0xD2 s

/-- 0xD3: *DCP izy (R287). -/
def execDcpIzy (z : Byte) (s : State) : Host.Outcome State Fault Refusal := unofficial (.dcpIzy z) (opDcp (.izy z)) s

/-- 0xD4: *NOP zpx (R304). -/
def execNopZpxD4 (z : Byte) (s : State) : Host.Outcome State Fault Refusal := unofficial (.nopZpxD4 z) (opNopU (.src (.mem (.zpx z)))) s

/-- 0xD7: *DCP zpx (R287). -/
def execDcpZpx (z : Byte) (s : State) : Host.Outcome State Fault Refusal := unofficial (.dcpZpx z) (opDcp (.zpx z)) s

/-- 0xDA: *NOP imp (R301). -/
def execNopDA (s : State) : Host.Outcome State Fault Refusal := unofficial .nopDA (opNopU .imp) s

/-- 0xDB: *DCP aby (R287). -/
def execDcpAby (l h : Byte) (s : State) : Host.Outcome State Fault Refusal := unofficial (.dcpAby l h) (opDcp (.aby l h)) s

/-- 0xDC: *NOP abx (R306). -/
def execNopAbxDC (l h : Byte) (s : State) : Host.Outcome State Fault Refusal := unofficial (.nopAbxDC l h) (opNopU (.src (.mem (.abx l h)))) s

/-- 0xDF: *DCP abx (R287). -/
def execDcpAbx (l h : Byte) (s : State) : Host.Outcome State Fault Refusal := unofficial (.dcpAbx l h) (opDcp (.abx l h)) s

/-- 0xE2: *NOP imm (R302). -/
def execNopImmE2 (d : Byte) (s : State) : Host.Outcome State Fault Refusal := unofficial (.nopImmE2 d) (opNopU (.src (.imm d))) s

/-- 0xE3: *ISC izx (R288). -/
def execIscIzx (z : Byte) (s : State) : Host.Outcome State Fault Refusal := unofficial (.iscIzx z) (opIsc (.izx z)) s

/-- 0xE7: *ISC zp (R288). -/
def execIscZp (z : Byte) (s : State) : Host.Outcome State Fault Refusal := unofficial (.iscZp z) (opIsc (.zp z)) s

/-- 0xEB: *SBC imm (R293). -/
def execSbcImmEB (d : Byte) (s : State) : Host.Outcome State Fault Refusal := unofficial (.sbcImmEB d) (opSbc (.imm d)) s

/-- 0xEF: *ISC abs (R288). -/
def execIscAbs (l h : Byte) (s : State) : Host.Outcome State Fault Refusal := unofficial (.iscAbs l h) (opIsc (.abs l h)) s

/-- 0xF2: *JAM imp (R311). -/
def execJamF2 (s : State) : Host.Outcome State Fault Refusal := opJam 0xF2 s

/-- 0xF3: *ISC izy (R288). -/
def execIscIzy (z : Byte) (s : State) : Host.Outcome State Fault Refusal := unofficial (.iscIzy z) (opIsc (.izy z)) s

/-- 0xF4: *NOP zpx (R304). -/
def execNopZpxF4 (z : Byte) (s : State) : Host.Outcome State Fault Refusal := unofficial (.nopZpxF4 z) (opNopU (.src (.mem (.zpx z)))) s

/-- 0xF7: *ISC zpx (R288). -/
def execIscZpx (z : Byte) (s : State) : Host.Outcome State Fault Refusal := unofficial (.iscZpx z) (opIsc (.zpx z)) s

/-- 0xFA: *NOP imp (R301). -/
def execNopFA (s : State) : Host.Outcome State Fault Refusal := unofficial .nopFA (opNopU .imp) s

/-- 0xFB: *ISC aby (R288). -/
def execIscAby (l h : Byte) (s : State) : Host.Outcome State Fault Refusal := unofficial (.iscAby l h) (opIsc (.aby l h)) s

/-- 0xFC: *NOP abx (R306). -/
def execNopAbxFC (l h : Byte) (s : State) : Host.Outcome State Fault Refusal := unofficial (.nopAbxFC l h) (opNopU (.src (.mem (.abx l h)))) s

/-- 0xFF: *ISC abx (R288). -/
def execIscAbx (l h : Byte) (s : State) : Host.Outcome State Fault Refusal := unofficial (.iscAbx l h) (opIsc (.abx l h)) s

end Sys2Proof.Machine
end

