-- ==== Sys2Proof/Machine/Dispatch.lean ====
section
/-! DEFINITION. One arm per opcode (spec/30_encoding.md R125). -/

namespace Sys2Proof.Machine

def exec (i : Instr) (s : State) : Host.Outcome State Fault Refusal :=
  match i with
  | .brk => Sys2Proof.Machine.execBrk s
  | .oraIzx z => Sys2Proof.Machine.execOraIzx z s
  | .jam02 => Sys2Proof.Machine.execJam02 s
  | .sloIzx z => Sys2Proof.Machine.execSloIzx z s
  | .nopZp04 z => Sys2Proof.Machine.execNopZp04 z s
  | .oraZp z => Sys2Proof.Machine.execOraZp z s
  | .aslZp z => Sys2Proof.Machine.execAslZp z s
  | .sloZp z => Sys2Proof.Machine.execSloZp z s
  | .php => Sys2Proof.Machine.execPhp s
  | .oraImm d => Sys2Proof.Machine.execOraImm d s
  | .aslAcc => Sys2Proof.Machine.execAslAcc s
  | .ancImm0B d => Sys2Proof.Machine.execAncImm0B d s
  | .nopAbs0C l h => Sys2Proof.Machine.execNopAbs0C l h s
  | .oraAbs l h => Sys2Proof.Machine.execOraAbs l h s
  | .aslAbs l h => Sys2Proof.Machine.execAslAbs l h s
  | .sloAbs l h => Sys2Proof.Machine.execSloAbs l h s
  | .bplRel o => Sys2Proof.Machine.execBplRel o s
  | .oraIzy z => Sys2Proof.Machine.execOraIzy z s
  | .jam12 => Sys2Proof.Machine.execJam12 s
  | .sloIzy z => Sys2Proof.Machine.execSloIzy z s
  | .nopZpx14 z => Sys2Proof.Machine.execNopZpx14 z s
  | .oraZpx z => Sys2Proof.Machine.execOraZpx z s
  | .aslZpx z => Sys2Proof.Machine.execAslZpx z s
  | .sloZpx z => Sys2Proof.Machine.execSloZpx z s
  | .clc => Sys2Proof.Machine.execClc s
  | .oraAby l h => Sys2Proof.Machine.execOraAby l h s
  | .nop1A => Sys2Proof.Machine.execNop1A s
  | .sloAby l h => Sys2Proof.Machine.execSloAby l h s
  | .nopAbx1C l h => Sys2Proof.Machine.execNopAbx1C l h s
  | .oraAbx l h => Sys2Proof.Machine.execOraAbx l h s
  | .aslAbx l h => Sys2Proof.Machine.execAslAbx l h s
  | .sloAbx l h => Sys2Proof.Machine.execSloAbx l h s
  | .jsrAbs l _ => Sys2Proof.Machine.execJsrAbs l s
  | .andIzx z => Sys2Proof.Machine.execAndIzx z s
  | .jam22 => Sys2Proof.Machine.execJam22 s
  | .rlaIzx z => Sys2Proof.Machine.execRlaIzx z s
  | .bitZp z => Sys2Proof.Machine.execBitZp z s
  | .andZp z => Sys2Proof.Machine.execAndZp z s
  | .rolZp z => Sys2Proof.Machine.execRolZp z s
  | .rlaZp z => Sys2Proof.Machine.execRlaZp z s
  | .plp => Sys2Proof.Machine.execPlp s
  | .andImm d => Sys2Proof.Machine.execAndImm d s
  | .rolAcc => Sys2Proof.Machine.execRolAcc s
  | .ancImm2B d => Sys2Proof.Machine.execAncImm2B d s
  | .bitAbs l h => Sys2Proof.Machine.execBitAbs l h s
  | .andAbs l h => Sys2Proof.Machine.execAndAbs l h s
  | .rolAbs l h => Sys2Proof.Machine.execRolAbs l h s
  | .rlaAbs l h => Sys2Proof.Machine.execRlaAbs l h s
  | .bmiRel o => Sys2Proof.Machine.execBmiRel o s
  | .andIzy z => Sys2Proof.Machine.execAndIzy z s
  | .jam32 => Sys2Proof.Machine.execJam32 s
  | .rlaIzy z => Sys2Proof.Machine.execRlaIzy z s
  | .nopZpx34 z => Sys2Proof.Machine.execNopZpx34 z s
  | .andZpx z => Sys2Proof.Machine.execAndZpx z s
  | .rolZpx z => Sys2Proof.Machine.execRolZpx z s
  | .rlaZpx z => Sys2Proof.Machine.execRlaZpx z s
  | .sec => Sys2Proof.Machine.execSec s
  | .andAby l h => Sys2Proof.Machine.execAndAby l h s
  | .nop3A => Sys2Proof.Machine.execNop3A s
  | .rlaAby l h => Sys2Proof.Machine.execRlaAby l h s
  | .nopAbx3C l h => Sys2Proof.Machine.execNopAbx3C l h s
  | .andAbx l h => Sys2Proof.Machine.execAndAbx l h s
  | .rolAbx l h => Sys2Proof.Machine.execRolAbx l h s
  | .rlaAbx l h => Sys2Proof.Machine.execRlaAbx l h s
  | .rti => Sys2Proof.Machine.execRti s
  | .eorIzx z => Sys2Proof.Machine.execEorIzx z s
  | .jam42 => Sys2Proof.Machine.execJam42 s
  | .sreIzx z => Sys2Proof.Machine.execSreIzx z s
  | .nopZp44 z => Sys2Proof.Machine.execNopZp44 z s
  | .eorZp z => Sys2Proof.Machine.execEorZp z s
  | .lsrZp z => Sys2Proof.Machine.execLsrZp z s
  | .sreZp z => Sys2Proof.Machine.execSreZp z s
  | .pha => Sys2Proof.Machine.execPha s
  | .eorImm d => Sys2Proof.Machine.execEorImm d s
  | .lsrAcc => Sys2Proof.Machine.execLsrAcc s
  | .alrImm d => Sys2Proof.Machine.execAlrImm d s
  | .jmpAbs l h => Sys2Proof.Machine.execJmpAbs l h s
  | .eorAbs l h => Sys2Proof.Machine.execEorAbs l h s
  | .lsrAbs l h => Sys2Proof.Machine.execLsrAbs l h s
  | .sreAbs l h => Sys2Proof.Machine.execSreAbs l h s
  | .bvcRel o => Sys2Proof.Machine.execBvcRel o s
  | .eorIzy z => Sys2Proof.Machine.execEorIzy z s
  | .jam52 => Sys2Proof.Machine.execJam52 s
  | .sreIzy z => Sys2Proof.Machine.execSreIzy z s
  | .nopZpx54 z => Sys2Proof.Machine.execNopZpx54 z s
  | .eorZpx z => Sys2Proof.Machine.execEorZpx z s
  | .lsrZpx z => Sys2Proof.Machine.execLsrZpx z s
  | .sreZpx z => Sys2Proof.Machine.execSreZpx z s
  | .cli => Sys2Proof.Machine.execCli s
  | .eorAby l h => Sys2Proof.Machine.execEorAby l h s
  | .nop5A => Sys2Proof.Machine.execNop5A s
  | .sreAby l h => Sys2Proof.Machine.execSreAby l h s
  | .nopAbx5C l h => Sys2Proof.Machine.execNopAbx5C l h s
  | .eorAbx l h => Sys2Proof.Machine.execEorAbx l h s
  | .lsrAbx l h => Sys2Proof.Machine.execLsrAbx l h s
  | .sreAbx l h => Sys2Proof.Machine.execSreAbx l h s
  | .rts => Sys2Proof.Machine.execRts s
  | .adcIzx z => Sys2Proof.Machine.execAdcIzx z s
  | .jam62 => Sys2Proof.Machine.execJam62 s
  | .rraIzx z => Sys2Proof.Machine.execRraIzx z s
  | .nopZp64 z => Sys2Proof.Machine.execNopZp64 z s
  | .adcZp z => Sys2Proof.Machine.execAdcZp z s
  | .rorZp z => Sys2Proof.Machine.execRorZp z s
  | .rraZp z => Sys2Proof.Machine.execRraZp z s
  | .pla => Sys2Proof.Machine.execPla s
  | .adcImm d => Sys2Proof.Machine.execAdcImm d s
  | .rorAcc => Sys2Proof.Machine.execRorAcc s
  | .arrImm d => Sys2Proof.Machine.execArrImm d s
  | .jmpInd l h => Sys2Proof.Machine.execJmpInd l h s
  | .adcAbs l h => Sys2Proof.Machine.execAdcAbs l h s
  | .rorAbs l h => Sys2Proof.Machine.execRorAbs l h s
  | .rraAbs l h => Sys2Proof.Machine.execRraAbs l h s
  | .bvsRel o => Sys2Proof.Machine.execBvsRel o s
  | .adcIzy z => Sys2Proof.Machine.execAdcIzy z s
  | .jam72 => Sys2Proof.Machine.execJam72 s
  | .rraIzy z => Sys2Proof.Machine.execRraIzy z s
  | .nopZpx74 z => Sys2Proof.Machine.execNopZpx74 z s
  | .adcZpx z => Sys2Proof.Machine.execAdcZpx z s
  | .rorZpx z => Sys2Proof.Machine.execRorZpx z s
  | .rraZpx z => Sys2Proof.Machine.execRraZpx z s
  | .sei => Sys2Proof.Machine.execSei s
  | .adcAby l h => Sys2Proof.Machine.execAdcAby l h s
  | .nop7A => Sys2Proof.Machine.execNop7A s
  | .rraAby l h => Sys2Proof.Machine.execRraAby l h s
  | .nopAbx7C l h => Sys2Proof.Machine.execNopAbx7C l h s
  | .adcAbx l h => Sys2Proof.Machine.execAdcAbx l h s
  | .rorAbx l h => Sys2Proof.Machine.execRorAbx l h s
  | .rraAbx l h => Sys2Proof.Machine.execRraAbx l h s
  | .nopImm80 d => Sys2Proof.Machine.execNopImm80 d s
  | .staIzx z => Sys2Proof.Machine.execStaIzx z s
  | .nopImm82 d => Sys2Proof.Machine.execNopImm82 d s
  | .saxIzx z => Sys2Proof.Machine.execSaxIzx z s
  | .styZp z => Sys2Proof.Machine.execStyZp z s
  | .staZp z => Sys2Proof.Machine.execStaZp z s
  | .stxZp z => Sys2Proof.Machine.execStxZp z s
  | .saxZp z => Sys2Proof.Machine.execSaxZp z s
  | .dey => Sys2Proof.Machine.execDey s
  | .nopImm89 d => Sys2Proof.Machine.execNopImm89 d s
  | .txa => Sys2Proof.Machine.execTxa s
  | .xaaImm d => Sys2Proof.Machine.execXaaImm d s
  | .styAbs l h => Sys2Proof.Machine.execStyAbs l h s
  | .staAbs l h => Sys2Proof.Machine.execStaAbs l h s
  | .stxAbs l h => Sys2Proof.Machine.execStxAbs l h s
  | .saxAbs l h => Sys2Proof.Machine.execSaxAbs l h s
  | .bccRel o => Sys2Proof.Machine.execBccRel o s
  | .staIzy z => Sys2Proof.Machine.execStaIzy z s
  | .jam92 => Sys2Proof.Machine.execJam92 s
  | .shaIzy z => Sys2Proof.Machine.execShaIzy z s
  | .styZpx z => Sys2Proof.Machine.execStyZpx z s
  | .staZpx z => Sys2Proof.Machine.execStaZpx z s
  | .stxZpy z => Sys2Proof.Machine.execStxZpy z s
  | .saxZpy z => Sys2Proof.Machine.execSaxZpy z s
  | .tya => Sys2Proof.Machine.execTya s
  | .staAby l h => Sys2Proof.Machine.execStaAby l h s
  | .txs => Sys2Proof.Machine.execTxs s
  | .tasAby l h => Sys2Proof.Machine.execTasAby l h s
  | .shyAbx l h => Sys2Proof.Machine.execShyAbx l h s
  | .staAbx l h => Sys2Proof.Machine.execStaAbx l h s
  | .shxAby l h => Sys2Proof.Machine.execShxAby l h s
  | .shaAby l h => Sys2Proof.Machine.execShaAby l h s
  | .ldyImm d => Sys2Proof.Machine.execLdyImm d s
  | .ldaIzx z => Sys2Proof.Machine.execLdaIzx z s
  | .ldxImm d => Sys2Proof.Machine.execLdxImm d s
  | .laxIzx z => Sys2Proof.Machine.execLaxIzx z s
  | .ldyZp z => Sys2Proof.Machine.execLdyZp z s
  | .ldaZp z => Sys2Proof.Machine.execLdaZp z s
  | .ldxZp z => Sys2Proof.Machine.execLdxZp z s
  | .laxZp z => Sys2Proof.Machine.execLaxZp z s
  | .tay => Sys2Proof.Machine.execTay s
  | .ldaImm d => Sys2Proof.Machine.execLdaImm d s
  | .tax => Sys2Proof.Machine.execTax s
  | .lxaImm d => Sys2Proof.Machine.execLxaImm d s
  | .ldyAbs l h => Sys2Proof.Machine.execLdyAbs l h s
  | .ldaAbs l h => Sys2Proof.Machine.execLdaAbs l h s
  | .ldxAbs l h => Sys2Proof.Machine.execLdxAbs l h s
  | .laxAbs l h => Sys2Proof.Machine.execLaxAbs l h s
  | .bcsRel o => Sys2Proof.Machine.execBcsRel o s
  | .ldaIzy z => Sys2Proof.Machine.execLdaIzy z s
  | .jamB2 => Sys2Proof.Machine.execJamB2 s
  | .laxIzy z => Sys2Proof.Machine.execLaxIzy z s
  | .ldyZpx z => Sys2Proof.Machine.execLdyZpx z s
  | .ldaZpx z => Sys2Proof.Machine.execLdaZpx z s
  | .ldxZpy z => Sys2Proof.Machine.execLdxZpy z s
  | .laxZpy z => Sys2Proof.Machine.execLaxZpy z s
  | .clv => Sys2Proof.Machine.execClv s
  | .ldaAby l h => Sys2Proof.Machine.execLdaAby l h s
  | .tsx => Sys2Proof.Machine.execTsx s
  | .lasAby l h => Sys2Proof.Machine.execLasAby l h s
  | .ldyAbx l h => Sys2Proof.Machine.execLdyAbx l h s
  | .ldaAbx l h => Sys2Proof.Machine.execLdaAbx l h s
  | .ldxAby l h => Sys2Proof.Machine.execLdxAby l h s
  | .laxAby l h => Sys2Proof.Machine.execLaxAby l h s
  | .cpyImm d => Sys2Proof.Machine.execCpyImm d s
  | .cmpIzx z => Sys2Proof.Machine.execCmpIzx z s
  | .nopImmC2 d => Sys2Proof.Machine.execNopImmC2 d s
  | .dcpIzx z => Sys2Proof.Machine.execDcpIzx z s
  | .cpyZp z => Sys2Proof.Machine.execCpyZp z s
  | .cmpZp z => Sys2Proof.Machine.execCmpZp z s
  | .decZp z => Sys2Proof.Machine.execDecZp z s
  | .dcpZp z => Sys2Proof.Machine.execDcpZp z s
  | .iny => Sys2Proof.Machine.execIny s
  | .cmpImm d => Sys2Proof.Machine.execCmpImm d s
  | .dex => Sys2Proof.Machine.execDex s
  | .axsImm d => Sys2Proof.Machine.execAxsImm d s
  | .cpyAbs l h => Sys2Proof.Machine.execCpyAbs l h s
  | .cmpAbs l h => Sys2Proof.Machine.execCmpAbs l h s
  | .decAbs l h => Sys2Proof.Machine.execDecAbs l h s
  | .dcpAbs l h => Sys2Proof.Machine.execDcpAbs l h s
  | .bneRel o => Sys2Proof.Machine.execBneRel o s
  | .cmpIzy z => Sys2Proof.Machine.execCmpIzy z s
  | .jamD2 => Sys2Proof.Machine.execJamD2 s
  | .dcpIzy z => Sys2Proof.Machine.execDcpIzy z s
  | .nopZpxD4 z => Sys2Proof.Machine.execNopZpxD4 z s
  | .cmpZpx z => Sys2Proof.Machine.execCmpZpx z s
  | .decZpx z => Sys2Proof.Machine.execDecZpx z s
  | .dcpZpx z => Sys2Proof.Machine.execDcpZpx z s
  | .cld => Sys2Proof.Machine.execCld s
  | .cmpAby l h => Sys2Proof.Machine.execCmpAby l h s
  | .nopDA => Sys2Proof.Machine.execNopDA s
  | .dcpAby l h => Sys2Proof.Machine.execDcpAby l h s
  | .nopAbxDC l h => Sys2Proof.Machine.execNopAbxDC l h s
  | .cmpAbx l h => Sys2Proof.Machine.execCmpAbx l h s
  | .decAbx l h => Sys2Proof.Machine.execDecAbx l h s
  | .dcpAbx l h => Sys2Proof.Machine.execDcpAbx l h s
  | .cpxImm d => Sys2Proof.Machine.execCpxImm d s
  | .sbcIzx z => Sys2Proof.Machine.execSbcIzx z s
  | .nopImmE2 d => Sys2Proof.Machine.execNopImmE2 d s
  | .iscIzx z => Sys2Proof.Machine.execIscIzx z s
  | .cpxZp z => Sys2Proof.Machine.execCpxZp z s
  | .sbcZp z => Sys2Proof.Machine.execSbcZp z s
  | .incZp z => Sys2Proof.Machine.execIncZp z s
  | .iscZp z => Sys2Proof.Machine.execIscZp z s
  | .inx => Sys2Proof.Machine.execInx s
  | .sbcImm d => Sys2Proof.Machine.execSbcImm d s
  | .nop => Sys2Proof.Machine.execNop s
  | .sbcImmEB d => Sys2Proof.Machine.execSbcImmEB d s
  | .cpxAbs l h => Sys2Proof.Machine.execCpxAbs l h s
  | .sbcAbs l h => Sys2Proof.Machine.execSbcAbs l h s
  | .incAbs l h => Sys2Proof.Machine.execIncAbs l h s
  | .iscAbs l h => Sys2Proof.Machine.execIscAbs l h s
  | .beqRel o => Sys2Proof.Machine.execBeqRel o s
  | .sbcIzy z => Sys2Proof.Machine.execSbcIzy z s
  | .jamF2 => Sys2Proof.Machine.execJamF2 s
  | .iscIzy z => Sys2Proof.Machine.execIscIzy z s
  | .nopZpxF4 z => Sys2Proof.Machine.execNopZpxF4 z s
  | .sbcZpx z => Sys2Proof.Machine.execSbcZpx z s
  | .incZpx z => Sys2Proof.Machine.execIncZpx z s
  | .iscZpx z => Sys2Proof.Machine.execIscZpx z s
  | .sed => Sys2Proof.Machine.execSed s
  | .sbcAby l h => Sys2Proof.Machine.execSbcAby l h s
  | .nopFA => Sys2Proof.Machine.execNopFA s
  | .iscAby l h => Sys2Proof.Machine.execIscAby l h s
  | .nopAbxFC l h => Sys2Proof.Machine.execNopAbxFC l h s
  | .sbcAbx l h => Sys2Proof.Machine.execSbcAbx l h s
  | .incAbx l h => Sys2Proof.Machine.execIncAbx l h s
  | .iscAbx l h => Sys2Proof.Machine.execIscAbx l h s

end Sys2Proof.Machine
end

