-- ==== Sys2Proof/Machine/Boundary.lean ====
section
/-! DEFINITION. What happens at an instruction boundary: the poll, one instruction, and placing an instruction where the next
fetch reads it (spec/60_exceptions.md R326, R327; spec/30_encoding.md R130). -/

namespace Sys2Proof.Machine

/-- Run one instruction: fetch its bytes on the bus, decode them, execute (spec/30_encoding.md R130). -/
def runInstruction (s : State) : Host.Outcome State Fault Refusal :=
  let f := fetchInstr s
  match decode f.1 with
  | .ok r => exec r.1 f.2
  | .error _ => .refused .undecodable

/-- An IRQ would be taken now (R325, R326). -/
def irqTaken (s : State) : Bool := irqLine s && !s.cpu.i

/-- `step()` of spec/60_exceptions.md R326: the poll, in its order, and exactly one of the four things. -/
def boundary (s : State) : Host.Outcome State Fault Refusal :=
  if s.bus.resetPending then .next (resetSequence s)
  else if s.bus.nmiPending then .next (nmiEntry s)
  else if irqTaken s then .next (irqEntry s)
  else runInstruction s

/-- A step in which a stall loop did not end has no next state (log 6). -/
def checkHung (o : Host.Outcome State Fault Refusal) : Host.Outcome State Fault Refusal :=
  match o with
  | .next t => if t.hung then .fault .stallNeverEnds else .next t
  | .fault r => .fault r
  | .refused r => .refused r

/-! Placing an instruction in memory. -/

/-- `a` is backed by memory whose bytes a fetch returns: work RAM, enabled PRG-RAM, or PRG-ROM. -/
def placeable (s : State) (a : Addr) : Bool :=
  a.toNat < 0x2000 || (0x6000 ≤ a.toNat && a.toNat < 0x8000 && prgRamEnabled s.mapper) || 0x8000 ≤ a.toNat

/-- Put byte `v` into the memory behind `a`: PRG-ROM is part of the loaded image. -/
def placeByte (a : Addr) (v : Byte) (s : State) : State :=
  if a.toNat < 0x2000 then { s with ram := s.ram.write (a.toNat % 2048) v }
  else if a.toNat < 0x8000 then { s with prgRam := s.prgRam.write (a.toNat - 0x6000) v }
  else { s with image := { s.image with prg := s.image.prg.write (prgOffset s.image s.mapper a.toNat) v } }

/-- Put bytes at `a` upward. -/
def placeBytes (a : Addr) : List Byte → State → State
  | [], s => s
  | b :: t, s => placeBytes (a + 1) t (placeByte a b s)

/-- The mapper with its IRQ flag lowered. -/
def Mapper.lowerIrq : Mapper → Mapper
  | .mmc3 r => .mmc3 { r with mapperIrq := false }
  | m => m

/-- No IRQ source asserted (spec/60_exceptions.md R323). -/
def lowerIrq (s : State) : State :=
  { s with apu := { s.apu with frameIrq := false, dmcIrq := false }, mapper := s.mapper.lowerIrq }

/-- The machine powered and about to fetch an instruction: nothing pending that the poll would take instead (log 17). -/
def readyToFetch (s : State) : State :=
  let s : State := { s with
    bus := { s.bus with resetPending := false, nmiPending := false }
    power := if s.power = .off then .powered else s.power
    hung := false }
  if irqTaken s then lowerIrq s else s

/-- The program counter moved to 0x0000, in work RAM, when three bytes at it cannot be placed (log 17). -/
def fetchable (s : State) : State :=
  if placeable s s.cpu.pc && placeable s (s.cpu.pc + 1) && placeable s (s.cpu.pc + 2) then s else s.setPc 0

end Sys2Proof.Machine
end

