-- ==== Sys2Proof/Machine/Step.lean ====
section
/-! DEFINITION. One step of the machine, and the state whose next step runs a given instruction. -/

namespace Sys2Proof.Machine

/-- One `step()` of the machine (spec/64_orchestrator.md R600; spec/60_exceptions.md R326). In OFF the machine is not stepped
(R601); a state in which a stall loop did not end has no next state (log 6). -/
def step (s : State) : Host.Outcome State Fault Refusal :=
  if s.power = .off then .fault .notPowered
  else if s.hung then .fault .stallNeverEnds
  else checkHung (boundary s)

/-- `s` with the instruction of a table word stored where `step` fetches next, and nothing pending before it (log 17). -/
def State.withFetchWord (s : State) (nbits w : Nat) : State :=
  let s := fetchable (readyToFetch s)
  placeBytes s.cpu.pc (tableBytes nbits w) s

end Sys2Proof.Machine
end

