-- ==== Sys2Proof/Machine/Orchestrator.lean ====
section
/-! DEFINITION. The frame orchestrator: the four calls of the host, as functions of the state (spec/64_orchestrator.md R590 to
R605; spec/61_bus_mapper.md R371 to R377; spec/70_reset_and_hazards.md R630, R631). `step` is their inner transition. -/

namespace Sys2Proof.Machine

/-! Power-on and soft reset. -/

/-- A blob as the 8192 bytes of PRG-RAM: the first 8192 bytes, padded with 0x00 (spec/61_bus_mapper.md R376). -/
def prgRamOfBlob (blob : List Byte) : Mem 8 := Mem.ofBytes (blob.take 8192)

/-- Copy bytes into an array from offset `a` upward. -/
def copyBytes (a : Nat) : List Byte → Mem 8 → Mem 8
  | [], m => m
  | b :: t, m => copyBytes (a + 1) t (m.write a b)

/-- PRG-RAM at power-on: the battery blob, then the trainer at 0x1000 (R376). -/
def Image.prgRamInit (im : Image) : Mem 8 :=
  let m := if im.battery then prgRamOfBlob (im.blob.getD []) else []
  match im.trainer with
  | none => m
  | some t => copyBytes 0x1000 t m

/-- Every unit at its power-on values with `reset_pending` set (spec/70_reset_and_hazards.md R630, R631). -/
def State.powerOn (cfg : Params) (im : Image) : State where
  cfg := cfg
  image := im
  cpu := Cpu.powerOn
  bus := Bus.powerOn
  ram := cfg.ramInit
  prgRam := im.prgRamInit
  chrRam := []
  ciram := []
  mapper := Mapper.powerOn im
  ppu := Ppu.powerOn
  apu := Apu.powerOn
  input := Input.powerOn
  power := .powered
  audioMark := 0
  diag := []
  backups := []
  jamSeen := false
  hung := false

/-- The machine in OFF: "no volatile state exists" (spec/64_orchestrator.md R591); its fields stand at their power-on values,
and nothing reads them (log 12). -/
def State.off (cfg : Params) (im : Image) : State := { State.powerOn cfg im with power := .off }

/-- The machine before the first `Load`: OFF, no image (R591). -/
def State.initial (cfg : Params) : State := State.off cfg { Image.blank with loaded := false }

/-- The PPU after a soft reset (spec/62_ppu.md R504). -/
def Ppu.softReset (p : Ppu) : Ppu :=
  { Ppu.powerOn with
    oamaddr := p.oamaddr
    v := p.v
    oam := p.oam
    pal := p.pal
    fbWork := p.fbWork
    fb := p.fb
    wantVideo := p.wantVideo }

/-- The CPU's hidden state after a soft reset (spec/10_state.md R56). -/
def Bus.softReset (b : Bus) : Bus :=
  { Bus.powerOn with
    db := b.db
    cyc := b.cyc
    mclk := b.mclk }

/-- `Reset` (spec/64_orchestrator.md R595; spec/70_reset_and_hazards.md R631). -/
def State.softReset (s : State) : State :=
  if s.power = .off then s
  else
    { s with
      cpu := { s.cpu with i := true }
      bus := s.bus.softReset
      ppu := s.ppu.softReset
      apu := s.apu.softReset }

/-! The file-IO collaborator (spec/61_bus_mapper.md R376, R377; spec/64_orchestrator.md R594). Its answers are inputs of the calls:
a failure is an IOFault, "logged, emulation continues without persisted save data" (log 28). -/

/-- How a read or a write of the battery backup ends. -/
inductive FileResult where
  | done
  | failed
deriving DecidableEq, Repr

/-- What the collaborator answers when `Load` asks for the battery blob of an image (R592). -/
inductive BlobRead where
  | found (bytes : List Byte)
  | absent
  | failed
deriving DecidableEq, Repr

/-- The blob the answer gives. -/
def BlobRead.bytes : BlobRead → Option (List Byte)
  | .found b => some b
  | .absent => none
  | .failed => none

/-- The answer as the end of a read. -/
def BlobRead.result : BlobRead → FileResult
  | .found _ => .done
  | .absent => .done
  | .failed => .failed

/-- Log the IOFault of an operation that failed; another changes nothing. -/
def State.logIo (op : FileOp) (r : FileResult) (s : State) : State :=
  match r with
  | .done => s
  | .failed => { s with diag := s.diag ++ [.ioFault op] }

/-- What persists of a blob after an operation on the backup: nothing after a failure (R594). -/
def persisted (r : FileResult) (blob : Option (List Byte)) : Option (List Byte) :=
  match r with
  | .done => blob
  | .failed => none

/-- A machine built anew, with the ghosts of `s` (logs 15 and 28). -/
def State.withGhostsOf (s t : State) : State := { t with diag := s.diag, backups := s.backups }

/-- Read back the battery backup, if the cartridge has a battery: the image with the blob that persists, and the IOFault logged
(spec/61_bus_mapper.md R376; spec/64_orchestrator.md R594). -/
def State.readBackup (r : FileResult) (s : State) : State :=
  if s.image.battery then { s with image := { s.image with blob := persisted r s.image.blob } }.logIo .read r else s

/-- `Power(true)` (spec/64_orchestrator.md R593); `r` is how reading the battery backup ends (R594). -/
def State.powerTrue (r : FileResult) (s : State) : State :=
  if s.power = .off && s.image.loaded then
    let u := s.readBackup r
    u.withGhostsOf (State.powerOn u.cfg u.image)
  else s

/-- The battery backup handed over at power-off, if there is one (spec/61_bus_mapper.md R377; spec/64_orchestrator.md R594). -/
def State.batteryOut (s : State) : Option (List Byte) :=
  if s.power ≠ .off && s.image.battery && s.cfg.batteryBackup then some (s.prgRam.toBytes 8192) else none

/-- Hand the battery backup to the collaborator, if there is one: the blob that persists is what the next `Power(true)` of the same
image reads back (R377, R594; log 14), and a failure is logged. -/
def State.flushBackup (r : FileResult) (s : State) : State :=
  match s.batteryOut with
  | none => s
  | some b =>
    { s with
      image := { s.image with blob := persisted r (some b) }
      backups := s.backups ++ [b] }.logIo .write r

/-- `Power(false)` (spec/64_orchestrator.md R593): the backup flushed, all volatile state discarded; `r` is how the write of the
backup ends. In OFF it does nothing. -/
def State.powerFalse (r : FileResult) (s : State) : State :=
  if s.power = .off then s
  else
    let u := s.flushBackup r
    u.withGhostsOf (State.off u.cfg u.image)

/-! `Load`. -/

/-- Why `Load` fails (spec/61_bus_mapper.md R373). -/
inductive LoadError where
  | malformedHeader
  | unsupportedConsoleType
  | unsupportedSize
  | truncatedImage
  | unsupportedMapper
  | unsupportedBoard
deriving DecidableEq, Repr

/-- The `region` argument of `Load` (spec/64_orchestrator.md R592). -/
inductive RegionArg where
  | ntsc
  | pal
  | auto
deriving DecidableEq, Repr

/-- Byte `n` of the image, 0 beyond its end. -/
def imageByte (file : List Byte) (n : Nat) : Byte := file.getD n 0

/-- The header marks the NES 2.0 extension (spec/61_bus_mapper.md R371). -/
def isNes20 (file : List Byte) : Bool := (imageByte file 7).extractLsb' 2 2 == 2

/-- Byte 7 as the rules read it: 0 in an iNES header in which any of bytes 12 to 15 is not 0 (R372). -/
def headerByte7 (file : List Byte) : Byte :=
  let text := imageByte file 12 != 0 || imageByte file 13 != 0 || imageByte file 14 != 0 || imageByte file 15 != 0
  if !isNes20 file && text then 0 else imageByte file 7

/-- `mapper_id` (R372). -/
def headerMapper (file : List Byte) : Nat :=
  ((headerByte7 file).extractLsb' 4 4).toNat * 16 + ((imageByte file 6).extractLsb' 4 4).toNat
    + (if isNes20 file then ((imageByte file 8).extractLsb' 0 4).toNat * 256 else 0)

/-- The supported mappers (R372, R425). -/
def mapperOfId : Nat → Option MapperId
  | 0 => some .nrom
  | 1 => some .mmc1
  | 2 => some .unrom
  | 4 => some .mmc3
  | _ => none

/-- The length of the trainer (R371). -/
def trainerLength (file : List Byte) : Nat := if (imageByte file 6).getLsbD 2 then 512 else 0

/-- The length the header calls for (R371, R373). -/
def requiredLength (file : List Byte) : Nat :=
  16 + trainerLength file + (imageByte file 4).toNat * 16384 + (imageByte file 5).toNat * 8192

/-- `region_hint` (R371). -/
def headerRegion (file : List Byte) : Region :=
  let hint := if isNes20 file then (imageByte file 12).getLsbD 0 else (imageByte file 9).getLsbD 0
  if hint then .pal else .ntsc

/-- `region` as `Load` resolves it (R374). -/
def resolveRegion (arg : RegionArg) (hint : Region) : Region :=
  match arg with
  | .ntsc => .ntsc
  | .pal => .pal
  | .auto => hint

/-- The image a valid file installs (R371, R374). -/
def parsedImage (file : List Byte) (id : MapperId) (arg : RegionArg) (blob : Option (List Byte)) : Image :=
  let flags := imageByte file 6
  let prgStart := 16 + trainerLength file
  let prgLength := (imageByte file 4).toNat * 16384
  let chrLength := (imageByte file 5).toNat * 8192
  { loaded := true
    region := resolveRegion arg (headerRegion file)
    mapperId := id
    prg := Mem.ofBytes ((file.drop prgStart).take prgLength)
    prgCount := (imageByte file 4).toNat
    chrRom := Mem.ofBytes ((file.drop (prgStart + prgLength)).take chrLength)
    chrCount := (imageByte file 5).toNat
    mirroring := if flags.getLsbD 0 then .vertical else .horizontal
    fourScreen := flags.getLsbD 3
    battery := flags.getLsbD 1
    regionHint := headerRegion file
    trainer := if flags.getLsbD 2 then some ((file.drop 16).take 512) else none
    blob := blob }

/-- Validate and parse an image (R373): the conditions in the order the rule lists them (log 24). -/
def parseImage (file : List Byte) (arg : RegionArg) (blob : Option (List Byte)) : Except LoadError Image :=
  if file.length < 16 || file.take 4 != [0x4E, 0x45, 0x53, 0x1A] then .error .malformedHeader
  else if imageByte file 4 = 0 then .error .malformedHeader
  else if (headerByte7 file).extractLsb' 0 2 ≠ 0 then .error .unsupportedConsoleType
  else if isNes20 file && imageByte file 9 != 0 then .error .unsupportedSize
  else if file.length < requiredLength file then .error .truncatedImage
  else
    match mapperOfId (headerMapper file) with
    | none => .error .unsupportedMapper
    | some id =>
      if id = .mmc1 && decide (16 < (imageByte file 4).toNat) then .error .unsupportedBoard
      else .ok (parsedImage file id arg blob)

/-- `Load(image, region)` (spec/64_orchestrator.md R592). On failure nothing changes. On success `Power(false)` is performed unless
the machine is OFF (`w` is how its write of the old image's backup ends), then the image is installed with the blob the collaborator
gives (`r`, asked for an image with a battery); the machine is OFF afterwards. -/
def State.load (file : List Byte) (arg : RegionArg) (r : BlobRead) (w : FileResult) (s : State) : Except LoadError State :=
  match parseImage file arg r.bytes with
  | .error e => .error e
  | .ok im =>
    let u := s.powerFalse w
    .ok (u.withGhostsOf (State.off u.cfg im) |>.readBackup r.result)

/-! `ExecuteFrame`. -/

/-- The one input poll of a frame (R601, R606); while the strobe is 1 the shift registers follow (R607; log 16). -/
def Input.latch (snap : InputSnapshot) (p : Input) : Input :=
  { p with
    latched := snap
    sh0 := if p.strobe then snap.pad0 else p.sh0
    sh1 := if p.strobe then snap.pad1 else p.sh1
    sh2 := if p.strobe then snap.pad2 else p.sh2 }

/-- The beginning of a frame (R601). -/
def beginFrame (wantVideo : Bool) (snap : InputSnapshot) (s : State) : State :=
  { s with
    power := .running
    ppu := { s.ppu with wantVideo := wantVideo }
    input := s.input.latch snap }

/-- How the steps of a frame end. -/
inductive FrameRun where
  /-- The PPU passed its frame boundary. -/
  | done (s : State)
  | fault (r : Fault)
  | refused (r : Refusal)
  /-- The steps allowed ran out; no reachable state leads here (log 18). -/
  | unfinished (s : State)
deriving Repr

/-- "repeat step() until ppu.frame_count != f", at most `fuel + 1` steps (R601; log 18). -/
def stepsUntil (f : Nat) : Nat → State → FrameRun
  | fuel, s =>
    match step s with
    | .fault r => .fault r
    | .refused r => .refused r
    | .next t =>
      if t.ppu.frameCount ≠ f then .done t
      else match fuel with
        | 0 => .unfinished t
        | fuel + 1 => stepsUntil f fuel t

/-- More steps than a frame has: a step takes at least two CPU cycles and a frame has at most 106392 dots (R601; spec/62_ppu.md
R451). -/
def frameFuel : Nat := 106392

/-- What `ExecuteFrame` returns (R601, R604, R618): the bytes of the published frame and the samples up to the frame boundary. -/
inductive FrameResult where
  | ok (fb : List Byte) (audio : List (BitVec 16))
  | notPowered
  | stopped
deriving DecidableEq, Repr

/-- The audio cut at the end of a frame (R601, R602). -/
def endFrame (s : State) : FrameResult × State :=
  (.ok (frameBuffer s.ppu) (s.apu.audioWork.take s.audioMark),
    { s with apu := { s.apu with audioWork := s.apu.audioWork.drop s.audioMark } })

/-- `ExecuteFrame(want_video)` with the input snapshot `snap` (R601). -/
def executeFrame (wantVideo : Bool) (snap : InputSnapshot) (s : State) : FrameResult × State :=
  if s.power = .off then (.notPowered, s)
  else
    match stepsUntil s.ppu.frameCount frameFuel (beginFrame wantVideo snap s) with
    | .done t => endFrame t
    | _ => (.stopped, s)

end Sys2Proof.Machine
end

