-- ==== Sys2Proof/Safety.lean ====
section
/-! DEFINITION. The terms in which claims are stated: a byte of memory, what a step may leave unchanged, which instructions store,
and the invariants every step keeps. -/

namespace Sys2Proof.Machine

/-! Memory. -/

/-- The byte behind an address of plain memory (`placeable`): work RAM, PRG-RAM, PRG-ROM (spec/20_memory.md R76;
spec/61_bus_mapper.md R380, R381). -/
def State.memoryByte (s : State) (a : Addr) : Byte :=
  if a.toNat < 0x2000 then s.ram.read (a.toNat % 2048)
  else if a.toNat < 0x8000 then s.prgRam.read (a.toNat - 0x6000)
  else prgByte s.image s.mapper a.toNat

/-- The word of the two bytes at `lo` and `hi` (spec/20_memory.md R70). -/
def State.memoryWord (s : State) (lo hi : Addr) : Addr := word (s.memoryByte hi) (s.memoryByte lo)

/-- The effective address of a memory operand, from the registers and the bytes of memory (spec/30_encoding.md R135 to R141). -/
def State.target (m : MemOperand) (s : State) : Addr :=
  match m with
  | .zp z => word 0x00 z
  | .zpx z => word 0x00 (z + s.cpu.x)
  | .zpy z => word 0x00 (z + s.cpu.y)
  | .abs l h => word h l
  | .abx l h => word h l + s.cpu.x.setWidth 16
  | .aby l h => word h l + s.cpu.y.setWidth 16
  | .izx z => s.memoryWord (word 0x00 (z + s.cpu.x)) (word 0x00 (z + s.cpu.x + 1))
  | .izy z => s.memoryWord (word 0x00 z) (word 0x00 (z + 1)) + s.cpu.y.setWidth 16

/-- The byte a read-modify-write access finds at its effective address, as the bus returns it (spec/30_encoding.md R132). -/
def oldByte (m : MemOperand) (s : State) : Byte := (memRead (effAddr .modify m s).1 (effAddr .modify m s).2).1

/-- Whether the indexing of a memory operand carries out of the low byte of its base (spec/30_encoding.md R145). -/
def State.crossing (m : MemOperand) (s : State) : Bool :=
  match m with
  | .abx l _ => decide (256 ≤ l.toNat + s.cpu.x.toNat)
  | .aby l _ => decide (256 ≤ l.toNat + s.cpu.y.toNat)
  | .izy z => decide (256 ≤ (s.memoryByte (word 0x00 z)).toNat + s.cpu.y.toNat)
  | _ => false

/-! Registers of the devices that time and reads leave alone. -/

/-- The mapper's bank, mirroring and protection registers: MMC3's counter and flags, which the PPU's bus drives, are masked. -/
def Mapper.registers : Mapper → Mapper
  | .mmc3 r => .mmc3 { r with irqCounter := 0, irqReload := false, mapperIrq := false, a12Low := 0 }
  | m => m

/-- The fields of a pulse channel that only register writes change. -/
def Pulse.written (p : Pulse) : BitVec 2 × Bool × Bool × BitVec 4 × Bool × BitVec 3 × Bool × BitVec 3 × Bool :=
  (p.duty, p.env.halt, p.env.const, p.env.vol, p.swEn, p.swPeriod, p.swNeg, p.swShift, p.enabled)

/-- The fields of the triangle channel that only register writes change. -/
def Triangle.written (t : Triangle) : Bool × BitVec 7 × BitVec 11 × Bool := (t.control, t.linReloadVal, t.period, t.enabled)

/-- The fields of the noise channel that only register writes change. -/
def Noise.written (n : Noise) : Bool × Bool × BitVec 4 × Bool × BitVec 4 × Bool :=
  (n.env.halt, n.env.const, n.env.vol, n.mode, n.periodIdx, n.enabled)

/-- The fields of the DMC channel that only register writes change. -/
def Dmc.written (d : Dmc) : Bool × Bool × BitVec 4 × Byte × Byte := (d.irqEn, d.loop, d.rateIdx, d.addrReg, d.lenReg)

/-- What time and reads leave unchanged: the configuration, the image, every byte of RAM, PRG-RAM, CHR-RAM, nametable RAM and
palette RAM, and the registers of the mapper, the PPU, the APU and the ports that only writes change. -/
structure Untouched (s t : State) : Prop where
  cfg : t.cfg = s.cfg
  image : t.image = s.image
  power : t.power = s.power
  resetPending : t.bus.resetPending = s.bus.resetPending
  ram : t.ram = s.ram
  prgRam : t.prgRam = s.prgRam
  chrRam : t.chrRam = s.chrRam
  ciram : t.ciram = s.ciram
  pal : t.ppu.pal = s.ppu.pal
  mapper : t.mapper.registers = s.mapper.registers
  ctrl : t.ppu.ctrl = s.ppu.ctrl
  mask : t.ppu.mask = s.ppu.mask
  scrollT : t.ppu.t = s.ppu.t
  scrollX : t.ppu.x = s.ppu.x
  wantVideo : t.ppu.wantVideo = s.ppu.wantVideo
  pulse1 : t.apu.pulse1.written = s.apu.pulse1.written
  pulse2 : t.apu.pulse2.written = s.apu.pulse2.written
  triangle : t.apu.triangle.written = s.apu.triangle.written
  noise : t.apu.noise.written = s.apu.noise.written
  dmc : t.apu.dmc.written = s.apu.dmc.written
  fcMode : t.apu.fcMode = s.apu.fcMode
  fcInhibit : t.apu.fcInhibit = s.apu.fcInhibit
  strobe : t.input.strobe = s.input.strobe
  latched : t.input.latched = s.input.latched

/-- Sprite memory and the DMA request are unchanged; true of whatever stores nothing while no OAM DMA is pending. -/
def OamUntouched (s t : State) : Prop := t.ppu.oam = s.ppu.oam ∧ t.bus.oamdmaPending = false

/-- `OAMDATA` or one of its mirrors (spec/20_memory.md R77; spec/62_ppu.md R439). -/
def isOamData (a : Addr) : Prop := 0x2000 ≤ a.toNat ∧ a.toNat < 0x4000 ∧ a.toNat % 8 = 4

/-- What a store to `ea` leaves unchanged, sprite memory apart: the configuration, the image, every byte of RAM and PRG-RAM but the
one at `ea`, and, when `ea` is no address of the PPU's window, CHR-RAM, nametable RAM and palette RAM. -/
structure CellFrame (ea : Addr) (s t : State) : Prop where
  cfg : t.cfg = s.cfg
  image : t.image = s.image
  power : t.power = s.power
  resetPending : t.bus.resetPending = s.bus.resetPending
  ram : ∀ b : Addr, b.toNat < 0x2000 → ¬(ea.toNat < 0x2000 ∧ ea.toNat % 2048 = b.toNat % 2048) →
    t.ram.read (b.toNat % 2048) = s.ram.read (b.toNat % 2048)
  prgRam : ∀ b : Addr, 0x6000 ≤ b.toNat → b.toNat < 0x8000 → b ≠ ea →
    t.prgRam.read (b.toNat - 0x6000) = s.prgRam.read (b.toNat - 0x6000)
  video : ¬(0x2000 ≤ ea.toNat ∧ ea.toNat < 0x4000) →
    t.chrRam = s.chrRam ∧ t.ciram = s.ciram ∧ t.ppu.pal = s.ppu.pal
  mapper : ea.toNat < 0x8000 → t.mapper.registers = s.mapper.registers
  ports : ea.toNat ≠ 0x4016 → t.input.strobe = s.input.strobe
  latched : t.input.latched = s.input.latched
  ppu : ¬(0x2000 ≤ ea.toNat ∧ ea.toNat < 0x4000) →
    t.ppu.ctrl = s.ppu.ctrl ∧ t.ppu.mask = s.ppu.mask ∧ t.ppu.t = s.ppu.t ∧ t.ppu.x = s.ppu.x
  apu : ¬(0x4000 ≤ ea.toNat ∧ ea.toNat < 0x4018) →
    t.apu.pulse1.written = s.apu.pulse1.written ∧ t.apu.pulse2.written = s.apu.pulse2.written ∧
    t.apu.triangle.written = s.apu.triangle.written ∧ t.apu.noise.written = s.apu.noise.written ∧
    t.apu.dmc.written = s.apu.dmc.written ∧ t.apu.fcMode = s.apu.fcMode ∧ t.apu.fcInhibit = s.apu.fcInhibit

/-- What a store to `ea` leaves unchanged: what `CellFrame` names, and sprite memory, unless `ea` is OAMDATA or an OAM DMA was
pending. -/
structure StoreFrame (ea : Addr) (s t : State) : Prop extends CellFrame ea s t where
  oam : s.bus.oamdmaPending = false → ¬isOamData ea → t.ppu.oam = s.ppu.oam

/-- What `n` pushes leave unchanged: everything `Untouched` names but the `n` bytes of the stack page from `S` downward, `S` the
stack pointer before them (spec/00_scope.md R16), and sprite memory while no OAM DMA is pending. -/
structure StackFrame (n : Nat) (s t : State) : Prop where
  rest : Untouched s { t with ram := s.ram }
  ram : ∀ b : Addr, b.toNat < 0x2000 →
    (b.toNat % 2048 < 0x100 ∨ 0x200 ≤ b.toNat % 2048 ∨ n ≤ (s.cpu.s - BitVec.ofNat 8 b.toNat).toNat) →
    t.memoryByte b = s.memoryByte b
  oam : s.bus.oamdmaPending = false → OamUntouched s t

/-- A store of `v` at `ea`: it leaves unchanged what `StoreFrame` names, it is the write of `v` that the bus carries out last,
and where `ea` is writable memory the byte there is `v` afterwards. -/
structure Stored (ea : Addr) (v : Byte) (s t : State) : Prop where
  frame : StoreFrame ea s t
  last : ∃ u, StoreFrame ea s u ∧ t = memWrite ea v u
  byte : (ea.toNat < 0x2000 ∨ 0x6000 ≤ ea.toNat ∧ ea.toNat < 0x8000 ∧ prgRamWritable s.mapper = true) →
    t.memoryByte ea = v

/-- No stall cycle, no OAM DMA and no DMC byte is due: no cycle comes between those of an instruction (spec/10_state.md R51;
spec/20_memory.md R96, R97). -/
structure Quiet (s : State) : Prop where
  stall : s.bus.stall = 0
  oamDma : s.bus.oamdmaPending = false
  dmc : s.apu.dmc.remaining = 0

end Sys2Proof.Machine

namespace Sys2Proof

/-! Which instructions store, and which write a register or a flag. -/

/-- Whether a mnemonic's memory forms write to the bus (spec/30_encoding.md R131, and the pushes), under `UNOFFICIAL`. -/
def Instr.stores (mode : UnofficialMode) (i : Instr) : Bool :=
  match i.mnem with
  | .sta | .stx | .sty | .pha | .php | .jsr | .brk | .inc | .dec => true
  | .asl | .lsr | .rol | .ror => i.form != .acc
  | .slo | .rla | .sre | .rra | .dcp | .isc | .sax | .sha | .shx | .shy | .tas => mode == .documented
  | _ => false

/-- The class of a mnemonic that has a memory operand (spec/30_encoding.md R131). -/
def Mnem.accClass : Mnem → Machine.AccClass
  | .sta | .stx | .sty | .sax | .sha | .shx | .shy | .tas => .write
  | .asl | .lsr | .rol | .ror | .inc | .dec | .slo | .rla | .sre | .rra | .dcp | .isc => .modify
  | _ => .read

/-- The condition of a branch (spec/44_control_transfer.md R244 to R251), none for another mnemonic. -/
def Mnem.condition (c : Machine.Cpu) : Mnem → Option Bool
  | .bcc => some (!c.c)
  | .bcs => some c.c
  | .beq => some c.z
  | .bne => some (!c.z)
  | .bmi => some c.n
  | .bpl => some (!c.n)
  | .bvc => some (!c.v)
  | .bvs => some c.v
  | _ => none

/-- The table of spec/30_encoding.md R144: the cycles of a memory format by class; `crossed` is the page crossing of R145. -/
def MemOperand.cycles (cls : Machine.AccClass) (crossed : Bool) : MemOperand → Nat
  | .zp _ => match cls with
    | .read => 3
    | .write => 3
    | .modify => 5
  | .zpx _ | .zpy _ | .abs _ _ => match cls with
    | .read => 4
    | .write => 4
    | .modify => 6
  | .abx _ _ | .aby _ _ => match cls with
    | .read => if crossed then 5 else 4
    | .write => 5
    | .modify => 7
  | .izx _ => match cls with
    | .read => 6
    | .write => 6
    | .modify => 8
  | .izy _ => match cls with
    | .read => if crossed then 6 else 5
    | .write => 6
    | .modify => 8

/-- The class an instruction has under `UNOFFICIAL`: the no-operation policy makes the unofficial ones read class
(spec/46_unofficial.md R312). -/
def Instr.accClass (mode : UnofficialMode) (i : Instr) : Machine.AccClass :=
  if mode = .nop && !i.mnem.official then .read else i.mnem.accClass

/-- The CPU cycles of an instruction that starts in state `s`, stall cycles apart (spec/30_encoding.md R142, R144). -/
def Instr.cycles (i : Instr) (s : Machine.State) : Nat :=
  match i.mnem with
  | .pha | .php => 3
  | .pla | .plp => 4
  | .jsr | .rts | .rti => 6
  | .brk => 7
  | .jmp => match i.form with
    | .ind _ _ => 5
    | _ => 3
  | m => match i.form with
    | .rel o =>
      if m.condition s.cpu = some true then
        (if hi8 (s.cpu.pc + 2 + o.signExtend 16) = hi8 (s.cpu.pc + 2) then 3 else 4)
      else 2
    | .src (.mem x) => x.cycles (i.accClass s.cfg.unofficial) (s.crossing x)
    | _ => 2

/-- The mnemonics that write A (spec/10_state.md R31). -/
def Mnem.writesA : Mnem → Bool
  | .lda | .txa | .tya | .pla | .adc | .sbc | .and | .ora | .eor | .asl | .lsr | .rol | .ror
  | .slo | .rla | .sre | .rra | .lax | .isc | .anc | .alr | .arr | .xaa | .lxa | .las | .sbcU => true
  | _ => false

/-- The mnemonics that write X (R32). -/
def Mnem.writesX : Mnem → Bool
  | .ldx | .tax | .tsx | .inx | .dex | .lax | .lxa | .axs | .las => true
  | _ => false

/-- The mnemonics that write Y (R33). -/
def Mnem.writesY : Mnem → Bool
  | .ldy | .tay | .iny | .dey => true
  | _ => false

/-- The mnemonics that write S (R34). -/
def Mnem.writesS : Mnem → Bool
  | .txs | .pha | .php | .pla | .plp | .jsr | .rts | .brk | .rti | .tas | .las => true
  | _ => false

/-- The mnemonics that write C (R37; 0xEB as SBC, spec/46_unofficial.md R293). -/
def Mnem.writesC : Mnem → Bool
  | .adc | .sbc | .cmp | .cpx | .cpy | .asl | .rol | .lsr | .ror | .clc | .sec | .plp | .rti
  | .slo | .rla | .sre | .rra | .dcp | .isc | .anc | .alr | .arr | .axs | .sbcU => true
  | _ => false

/-- The mnemonics that write Z and N (R38, R42). -/
def Mnem.writesNZ : Mnem → Bool
  | .lda | .ldx | .ldy | .tax | .tay | .txa | .tya | .tsx | .pla | .and | .ora | .eor | .adc | .sbc | .inc | .dec
  | .inx | .iny | .dex | .dey | .asl | .lsr | .rol | .ror | .cmp | .cpx | .cpy | .bit | .plp | .rti
  | .slo | .rla | .sre | .rra | .lax | .dcp | .isc | .anc | .alr | .arr | .axs | .xaa | .lxa | .las | .sbcU => true
  | _ => false

/-- The mnemonics that write I (R39). -/
def Mnem.writesI : Mnem → Bool
  | .sei | .cli | .plp | .rti | .brk => true
  | _ => false

/-- The mnemonics that write D (R40). -/
def Mnem.writesD : Mnem → Bool
  | .sed | .cld | .plp | .rti => true
  | _ => false

/-- The mnemonics that write V (R41). -/
def Mnem.writesV : Mnem → Bool
  | .adc | .sbc | .bit | .clv | .plp | .rti | .rra | .isc | .arr | .sbcU => true
  | _ => false

end Sys2Proof

namespace Sys2Proof.Machine

/-! Invariants. -/

/-- Every array is in its canonical form. -/
structure MemoriesCanonical (s : State) : Prop where
  ram : s.ram.wf = true
  prgRam : s.prgRam.wf = true
  chrRam : s.chrRam.wf = true
  ciram : s.ciram.wf = true
  oam : s.ppu.oam.wf = true
  pal : s.ppu.pal.wf = true
  fbWork : s.ppu.fbWork.wf = true

/-- `mclk = cyc * CPU_DIV` (spec/64_orchestrator.md R597). -/
def ClocksAgree (s : State) : Prop := s.bus.mclk = s.bus.cyc * s.image.region.cpuDiv

/-- The position of the PPU is one of its frame's (spec/62_ppu.md R450, R452). -/
def PpuPositionLegal (s : State) : Prop := s.ppu.scanline ≤ s.image.region.preLine ∧ s.ppu.dot ≤ 340

/-- Bits 4:2 of every sprite attribute byte are 0 (spec/62_ppu.md R439, R447). -/
def OamAttributesMasked (s : State) : Prop := ∀ n, (s.ppu.oam.read (4 * n + 2)) &&& 0x1C = 0

/-- The noise register is not 0, the DMC reads from 0x8000 upward and its bit counter is 1 to 8 (spec/63_apu.md R554, R566,
R511). -/
structure ApuLegal (s : State) : Prop where
  lfsr : s.apu.noise.lfsr ≠ 0
  curAddr : 0x8000 ≤ s.apu.dmc.curAddr.toNat
  bitsPos : 1 ≤ s.apu.dmc.bits
  bitsLe : s.apu.dmc.bits ≤ 8

/-- What every step keeps. -/
structure State.Inv (s : State) : Prop where
  memories : MemoriesCanonical s
  clocks : ClocksAgree s
  position : PpuPositionLegal s
  attributes : OamAttributesMasked s
  apu : ApuLegal s

end Sys2Proof.Machine
end

