-- ==== Sys2Proof/Certificates/Slice0/Obligations.lean ====
section
/-! DEFINITION. The statements for the provers. Each docstring names the rules it formalises; `t.cpu = { s.cpu with … }` says that
every register and flag it does not name is unchanged, and `Untouched`, `StoreFrame`, `StackFrame` and `Stored` (Safety.lean) say
the same of memory and the devices. `exec` runs an instruction whose operand bytes have been fetched: PC is the address of the
next instruction (of its third byte for JSR, of the padding byte for BRK). -/

open Sys2Proof Sys2Proof.Machine

/-! Encoding. -/

/-- Decoding what the encoder writes gives the instruction back, whatever follows (spec/30_encoding.md R120, R121). -/
def Obligations.DecodeOfEncode : Prop :=
  ∀ (i : Instr) (rest : List Byte), decode (encode i ++ rest) = .ok (i, rest)

/-- What decodes is the encoding of the instruction it decodes to: no two byte sequences mean one instruction. -/
def Obligations.EncodeOfDecode : Prop :=
  ∀ (bytes rest : List Byte) (i : Instr), decode bytes = .ok (i, rest) → bytes = encode i ++ rest

/-- Words written out from spec/30_encoding.md R125 and the operand order of R121. -/
def Obligations.DecodeWords : Prop :=
  decodeTableWord 8 0x00 = some .brk ∧ decodeTableWord 16 0x10A5 = some (.ldaZp 0x10) ∧
  decodeTableWord 24 0x1234BD = some (.ldaAbx 0x34 0x12) ∧ decodeTableWord 24 0x02FF6C = some (.jmpInd 0xFF 0x02) ∧
  decodeTableWord 16 0xFED0 = some (.bneRel 0xFE) ∧ decodeTableWord 16 0x7F69 = some (.adcImm 0x7F) ∧
  decodeTableWord 8 0x0A = some .aslAcc ∧ decodeTableWord 16 0x2007 = some (.sloZp 0x20) ∧
  decodeTableWord 16 0x01EB = some (.sbcImmEB 0x01) ∧ decodeTableWord 8 0x02 = some .jam02

/-- R127: the length is a function of the opcode byte alone, 1, 2 or 3 by format, and every opcode byte with as many bytes as that is
an instruction (R126: no encoding traps). Decoding does not see `UNOFFICIAL`. -/
def Obligations.LengthByOpcode : Prop :=
  ∀ (op : Byte) (rest : List Byte),
    ((∃ i r, decode (op :: rest) = .ok (i, r)) ↔ instrLength op ≤ rest.length + 1) ∧
    ∀ i r, decode (op :: rest) = .ok (i, r) → i.opcode = op ∧ r = rest.drop (instrLength op - 1) ∧
      instrLength op = match i.form with
        | .imp | .acc => 1
        | .rel _ | .src (.imm _) | .src (.mem (.zp _)) | .src (.mem (.zpx _)) | .src (.mem (.zpy _)) | .src (.mem (.izx _))
        | .src (.mem (.izy _)) => 2
        | .ind _ _ | .src (.mem (.abs _ _)) | .src (.mem (.abx _ _)) | .src (.mem (.aby _ _)) => 3

/-! The step. -/

/-- When the bytes at PC decode to an instruction and the poll takes nothing else, a step is `exec` of it after the fetch of its
bytes, which moves PC past them (JSR fetches its third byte itself, R241) and leaves memory and devices untouched. A stall loop that
never ends stops the step (log 6). -/
def Obligations.StepRunsDecoded : Prop :=
  ∀ (s : State) (i : Instr) (rest : List Byte),
    s.power ≠ .off → s.hung = false → s.bus.resetPending = false → s.bus.nmiPending = false → irqTaken s = false →
    placeable s s.cpu.pc = true → placeable s (s.cpu.pc + 1) = true → placeable s (s.cpu.pc + 2) = true →
    decode [s.memoryByte s.cpu.pc, s.memoryByte (s.cpu.pc + 1), s.memoryByte (s.cpu.pc + 2)] = .ok (i, rest) →
    ∃ u, Untouched s u ∧
      u.cpu = { s.cpu with pc := s.cpu.pc + (if i.opcode = 0x20 then 2 else BitVec.ofNat 16 (instrLength i.opcode)) } ∧
      step s = match exec i u with
        | .next t => if t.hung then .fault .stallNeverEnds else .next t
        | .fault r => .fault r
        | .refused r => .refused r

/-- R326, R327: the poll, in its order, and exactly one of the four things. -/
def Obligations.PollOrder : Prop :=
  ∀ s : State, s.power ≠ .off → s.hung = false →
    (s.bus.resetPending = true → step s = checkHung (.next (resetSequence s))) ∧
    (s.bus.resetPending = false → s.bus.nmiPending = true → step s = checkHung (.next (nmiEntry s))) ∧
    (s.bus.resetPending = false → s.bus.nmiPending = false → irqLine s = true → s.cpu.i = false →
      step s = checkHung (.next (irqEntry s))) ∧
    (s.bus.resetPending = false → s.bus.nmiPending = false → (irqLine s = false ∨ s.cpu.i = true) →
      step s = checkHung (runInstruction s))

/-- R321, R126: no instruction stops. `exec` answers a next state for every instruction in every state, and a step of a powered
machine that is not hung either has a next state or found a stall loop without end. -/
def Obligations.NoInstructionStops : Prop :=
  (∀ (i : Instr) (s : State), ∃ t, exec i s = .next t) ∧
  (∀ s : State, s.power ≠ .off → s.hung = false → (∃ t, step s = .next t) ∨ step s = .fault .stallNeverEnds) ∧
  (∀ s : State, s.power = .off → step s = .fault .notPowered)

/-- R144: the cycles of every instruction under both settings of `UNOFFICIAL`, and of the interrupt entries and the reset sequence,
when nothing steals a cycle. -/
def Obligations.CycleCounts : Prop :=
  (∀ (s : State) (i : Instr) (rest : List Byte), Quiet s →
    s.power ≠ .off → s.hung = false → s.bus.resetPending = false → s.bus.nmiPending = false → irqTaken s = false →
    placeable s s.cpu.pc = true → placeable s (s.cpu.pc + 1) = true → placeable s (s.cpu.pc + 2) = true →
    decode [s.memoryByte s.cpu.pc, s.memoryByte (s.cpu.pc + 1), s.memoryByte (s.cpu.pc + 2)] = .ok (i, rest) →
    ∃ t, step s = .next t ∧ t.bus.cyc = s.bus.cyc + i.cycles s) ∧
  (∀ s : State, Quiet s → (resetSequence s).bus.cyc = s.bus.cyc + 7 ∧ (nmiEntry s).bus.cyc = s.bus.cyc + 7 ∧
    (irqEntry s).bus.cyc = s.bus.cyc + 7)

/-! The bus. -/

/-- R76, R380, R381: a read of work RAM, enabled PRG-RAM or PRG-ROM returns the byte there, sets `DB` to it (R48), and changes no
register, no memory and no device register. -/
def Obligations.ReadMemory : Prop :=
  ∀ (a : Addr) (s : State), placeable s a = true →
    (memRead a s).1 = s.memoryByte a ∧ (memRead a s).2.bus.db = s.memoryByte a ∧ (memRead a s).2.cpu = s.cpu ∧
    Untouched s (memRead a s).2 ∧ (s.bus.oamdmaPending = false → OamUntouched s (memRead a s).2)

/-- R78 to R80, R83, R85, R381: a read that nothing drives (a write-only or unused address, or PRG-RAM while it is disabled, R404,
R415) returns `DB` as it stands after the dots and the tick of its cycle (the DMC reader may set it), and leaves it so. -/
def Obligations.OpenBus : Prop :=
  ∀ (a : Addr) (s : State),
    (0x4000 ≤ a.toNat ∧ a.toNat < 0x6000 ∧ a.toNat ≠ 0x4015 ∧ a.toNat ≠ 0x4016 ∧ a.toNat ≠ 0x4017 ∨
      0x6000 ≤ a.toNat ∧ a.toNat < 0x8000 ∧ prgRamEnabled s.mapper = false) →
    (memRead a s).1 = (beginCycle (preRead s)).bus.db ∧ (memRead a s).2.bus.db = (memRead a s).1 ∧
    (Quiet s → (memRead a s).1 = s.bus.db)

/-- R76, R80, R381, R85: a write stores to work RAM through its mirrors, and to PRG-RAM when it is enabled and not protected; a write
elsewhere stores to neither, and no write changes PRG-ROM or a CPU register. -/
def Obligations.WriteMemory : Prop :=
  ∀ (a : Addr) (v : Byte) (s : State),
    (memWrite a v s).cpu = s.cpu ∧ (memWrite a v s).image = s.image ∧ (memWrite a v s).bus.db = v ∧
    StoreFrame a s (memWrite a v s) ∧
    (a.toNat < 0x2000 → ∀ b : Addr, b.toNat < 0x2000 → b.toNat % 2048 = a.toNat % 2048 →
      (memWrite a v s).memoryByte b = v) ∧
    (0x6000 ≤ a.toNat → a.toNat < 0x8000 →
      (memWrite a v s).memoryByte a = if prgRamWritable s.mapper then v else s.memoryByte a)

/-- R52, R53, R599: an access advances the counters by one CPU cycle, and before a read comes one cycle for each stall cycle (as
long as no DMC byte comes due meanwhile). -/
def Obligations.CycleCounters : Prop :=
  (∀ (a : Addr) (v : Byte) (s : State), (memWrite a v s).bus.cyc = s.bus.cyc + 1 ∧
    (memWrite a v s).bus.mclk = s.bus.mclk + s.image.region.cpuDiv) ∧
  (∀ (a : Addr) (s : State), s.bus.oamdmaPending = false → s.apu.dmc.remaining = 0 →
    (memRead a s).2.bus.cyc = s.bus.cyc + s.bus.stall + 1 ∧
    (memRead a s).2.bus.mclk = s.bus.mclk + (s.bus.stall + 1) * s.image.region.cpuDiv ∧
    (memRead a s).2.bus.stall = 0 ∧ (memRead a s).2.hung = s.hung)

/-- R96: the OAM DMA runs to completion before a CPU read and costs 513 CPU cycles, or 514 when the alignment cycle is needed. -/
def Obligations.OamDmaCost : Prop :=
  ∀ (a : Addr) (s : State), s.bus.stall = 0 → s.bus.oamdmaPending = true → s.apu.dmc.remaining = 0 →
    (memRead a s).2.bus.cyc = s.bus.cyc + (if s.bus.cyc % 2 = 0 then 514 else 513) + 1 ∧
    (memRead a s).2.bus.oamdmaPending = false

/-- R96, R439: with rendering off, an OAM DMA from a page of work RAM copies it to sprite memory from OAMADDR on, bits 4:2 of the
attribute bytes cleared, and leaves OAMADDR as it was. -/
def Obligations.OamDmaCopies : Prop :=
  ∀ (a : Addr) (s : State), s.bus.stall = 0 → s.bus.oamdmaPending = true → s.apu.dmc.remaining = 0 →
    s.ppu.renderingEnabled = false → s.bus.oamdmaPage.toNat < 0x20 →
    (memRead a s).2.ppu.oamaddr = s.ppu.oamaddr ∧
    ∀ i : Byte, (memRead a s).2.ppu.oam.read (s.ppu.oamaddr + i).toNat =
      (if (s.ppu.oamaddr + i).toNat % 4 = 2 then s.memoryByte (word s.bus.oamdmaPage i) &&& 0xE3
       else s.memoryByte (word s.bus.oamdmaPage i))

/-! Operands. -/

/-- R135 to R141: the effective address of every memory format, in every class, and the operand byte at it when memory is there. The
dummy and pointer reads on the way change no register and no memory. -/
def Obligations.EffectiveAddress : Prop :=
  ∀ (cls : AccClass) (m : MemOperand) (s : State),
    (effAddr cls m s).1 = s.target m ∧ (effAddr cls m s).2.cpu = s.cpu ∧ Untouched s (effAddr cls m s).2 ∧
    (placeable s (s.target m) = true →
      (readSrc (.mem m) s).1 = s.memoryByte (s.target m) ∧ oldByte m s = s.memoryByte (s.target m))

/-! Loads, stores, transfers, stack. -/

/-- R171 to R173, LDA, LDX, LDY: the register is the operand byte, N and Z are its, nothing else changes. -/
def Obligations.Loads : Prop :=
  ∀ (i : Instr) (x : Src) (s : State), i.form = .src x →
    let m := (readSrc x s).1
    (i.mnem = .lda → ∃ t, exec i s = .next t ∧ Untouched s t ∧
      t.cpu = { s.cpu with a := m, z := m == 0, n := m.getLsbD 7 }) ∧
    (i.mnem = .ldx → ∃ t, exec i s = .next t ∧ Untouched s t ∧
      t.cpu = { s.cpu with x := m, z := m == 0, n := m.getLsbD 7 }) ∧
    (i.mnem = .ldy → ∃ t, exec i s = .next t ∧ Untouched s t ∧
      t.cpu = { s.cpu with y := m, z := m == 0, n := m.getLsbD 7 })

/-- R174 to R176 and R285, STA, STX, STY, SAX: the byte is stored at the effective address; no register and no flag changes. -/
def Obligations.Stores : Prop :=
  ∀ (i : Instr) (m : MemOperand) (s : State), i.form = .src (.mem m) →
    (i.mnem = .sta → ∃ t, exec i s = .next t ∧ t.cpu = s.cpu ∧ Stored (s.target m) s.cpu.a s t) ∧
    (i.mnem = .stx → ∃ t, exec i s = .next t ∧ t.cpu = s.cpu ∧ Stored (s.target m) s.cpu.x s t) ∧
    (i.mnem = .sty → ∃ t, exec i s = .next t ∧ t.cpu = s.cpu ∧ Stored (s.target m) s.cpu.y s t) ∧
    (i.mnem = .sax → s.cfg.unofficial = .documented →
      ∃ t, exec i s = .next t ∧ t.cpu = s.cpu ∧ Stored (s.target m) (s.cpu.a &&& s.cpu.x) s t)

/-- R177 to R182: the six transfers, each one byte; TXS leaves N and Z unchanged. -/
def Obligations.Transfers : Prop :=
  ∀ s : State,
    (∃ t, exec .tax s = .next t ∧ Untouched s t ∧
      t.cpu = { s.cpu with x := s.cpu.a, z := s.cpu.a == 0, n := s.cpu.a.getLsbD 7 }) ∧
    (∃ t, exec .tay s = .next t ∧ Untouched s t ∧
      t.cpu = { s.cpu with y := s.cpu.a, z := s.cpu.a == 0, n := s.cpu.a.getLsbD 7 }) ∧
    (∃ t, exec .txa s = .next t ∧ Untouched s t ∧
      t.cpu = { s.cpu with a := s.cpu.x, z := s.cpu.x == 0, n := s.cpu.x.getLsbD 7 }) ∧
    (∃ t, exec .tya s = .next t ∧ Untouched s t ∧
      t.cpu = { s.cpu with a := s.cpu.y, z := s.cpu.y == 0, n := s.cpu.y.getLsbD 7 }) ∧
    (∃ t, exec .tsx s = .next t ∧ Untouched s t ∧
      t.cpu = { s.cpu with x := s.cpu.s, z := s.cpu.s == 0, n := s.cpu.s.getLsbD 7 }) ∧
    (∃ t, exec .txs s = .next t ∧ Untouched s t ∧ t.cpu = { s.cpu with s := s.cpu.x }) ∧
    encode .tax = [0xAA] ∧ encode .tay = [0xA8] ∧ encode .txa = [0x8A] ∧ encode .tya = [0x98] ∧ encode .tsx = [0xBA] ∧
    encode .txs = [0x9A]

/-- R190, R191, PHA and PHP: the byte is pushed at 0x0100 + S, S is decremented modulo 256, no flag changes. -/
def Obligations.Pushes : Prop :=
  ∀ s : State,
    (∃ t, exec .pha s = .next t ∧ t.cpu = { s.cpu with s := s.cpu.s - 1 } ∧ StackFrame 1 s t ∧
      t.memoryByte (word 0x01 s.cpu.s) = s.cpu.a) ∧
    (∃ t, exec .php s = .next t ∧ t.cpu = { s.cpu with s := s.cpu.s - 1 } ∧ StackFrame 1 s t ∧
      t.memoryByte (word 0x01 s.cpu.s) =
        BitVec.ofBool s.cpu.n ++ BitVec.ofBool s.cpu.v ++ (0b11 : BitVec 2) ++ BitVec.ofBool s.cpu.d ++
          BitVec.ofBool s.cpu.i ++ BitVec.ofBool s.cpu.z ++ BitVec.ofBool s.cpu.c)

/-- R192, R193, PLA and PLP: S is incremented modulo 256 and the byte at 0x0100 + S is pulled. -/
def Obligations.Pulls : Prop :=
  ∀ s : State,
    let m := s.memoryByte (word 0x01 (s.cpu.s + 1))
    (∃ t, exec .pla s = .next t ∧ Untouched s t ∧
      t.cpu = { s.cpu with s := s.cpu.s + 1, a := m, z := m == 0, n := m.getLsbD 7 }) ∧
    (∃ t, exec .plp s = .next t ∧ Untouched s t ∧
      t.cpu = { s.cpu with
        s := s.cpu.s + 1
        n := m.getLsbD 7
        v := m.getLsbD 6
        d := m.getLsbD 3
        i := m.getLsbD 2
        z := m.getLsbD 1
        c := m.getLsbD 0 })

/-! Arithmetic and logic. -/

/-- R200, R201 (and R293 for 0xEB), ADC and SBC: the sum modulo 256, C the carry out, V "the signed sum lies outside -128 .. 127";
SBC is ADC of the complement, C clear meaning a borrow. D is not read. -/
def Obligations.AddSubtract : Prop :=
  ∀ (i : Instr) (x : Src) (s : State), i.form = .src x →
    let m := (readSrc x s).1
    let c := s.cpu.c.toNat
    let sum := s.cpu.a.toNat + m.toNat + c
    let signedSum := s.cpu.a.toInt + m.toInt + c
    let difference := (s.cpu.a.toNat : Int) - m.toNat - (1 - c)
    let signedDifference := s.cpu.a.toInt - m.toInt - (1 - c)
    (i.mnem = .adc → ∃ t, exec i s = .next t ∧ Untouched s t ∧
      t.cpu = { s.cpu with
        a := BitVec.ofNat 8 sum
        c := decide (256 ≤ sum)
        v := decide (signedSum < -128 ∨ 127 < signedSum)
        z := BitVec.ofNat 8 sum == 0
        n := (BitVec.ofNat 8 sum).getLsbD 7 }) ∧
    (i.mnem = .sbc ∨ i.mnem = .sbcU ∧ s.cfg.unofficial = .documented → ∃ t, exec i s = .next t ∧ Untouched s t ∧
      t.cpu = { s.cpu with
        a := BitVec.ofInt 8 difference
        c := decide (0 ≤ difference)
        v := decide (signedDifference < -128 ∨ 127 < signedDifference)
        z := BitVec.ofInt 8 difference == 0
        n := (BitVec.ofInt 8 difference).getLsbD 7 })

/-- R202 to R204, AND, ORA, EOR. -/
def Obligations.Logic : Prop :=
  ∀ (i : Instr) (x : Src) (s : State), i.form = .src x →
    let m := (readSrc x s).1
    let effect (r : Byte) : Prop := ∃ t, exec i s = .next t ∧ Untouched s t ∧
      t.cpu = { s.cpu with a := r, z := r == 0, n := r.getLsbD 7 }
    (i.mnem = .and → effect (s.cpu.a &&& m)) ∧ (i.mnem = .ora → effect (s.cpu.a ||| m)) ∧
    (i.mnem = .eor → effect (s.cpu.a ^^^ m))

/-- R205 to R207, CMP, CPX, CPY: C for unsigned at least, Z for equal, N bit 7 of the difference; no register changes. -/
def Obligations.Compares : Prop :=
  ∀ (i : Instr) (x : Src) (s : State), i.form = .src x →
    let m := (readSrc x s).1
    let effect (r : Byte) : Prop := ∃ t, exec i s = .next t ∧ Untouched s t ∧
      t.cpu = { s.cpu with
        c := decide (m.toNat ≤ r.toNat)
        z := decide (r = m)
        n := (BitVec.ofInt 8 ((r.toNat : Int) - m.toNat)).getLsbD 7 }
    (i.mnem = .cmp → effect s.cpu.a) ∧ (i.mnem = .cpx → effect s.cpu.x) ∧ (i.mnem = .cpy → effect s.cpu.y)

/-- R208, BIT: Z from the AND, N and V from the operand's bits 7 and 6; A is not changed. -/
def Obligations.BitTest : Prop :=
  ∀ (i : Instr) (x : Src) (s : State), i.mnem = .bit → i.form = .src x →
    let m := (readSrc x s).1
    ∃ t, exec i s = .next t ∧ Untouched s t ∧
      t.cpu = { s.cpu with z := s.cpu.a &&& m == 0, n := m.getLsbD 7, v := m.getLsbD 6 }

/-- R222 to R225, INX, INY, DEX, DEY: modulo 256; two cycles, the opcode fetch and the one that runs here
(`CycleCounts` says that a step takes `Instr.cycles`). -/
def Obligations.RegisterSteps : Prop :=
  ∀ s : State,
    let effect (i : Instr) (c : Cpu) : Prop :=
      ∃ t, exec i s = .next t ∧ Untouched s t ∧ t.cpu = c ∧ (Quiet s → t.bus.cyc = s.bus.cyc + 1) ∧ i.cycles s = 2
    effect .inx { s.cpu with x := s.cpu.x + 1, z := s.cpu.x + 1 == 0, n := (s.cpu.x + 1).getLsbD 7 } ∧
    effect .iny { s.cpu with y := s.cpu.y + 1, z := s.cpu.y + 1 == 0, n := (s.cpu.y + 1).getLsbD 7 } ∧
    effect .dex { s.cpu with x := s.cpu.x - 1, z := s.cpu.x - 1 == 0, n := (s.cpu.x - 1).getLsbD 7 } ∧
    effect .dey { s.cpu with y := s.cpu.y - 1, z := s.cpu.y - 1 == 0, n := (s.cpu.y - 1).getLsbD 7 } ∧
    encode .inx = [0xE8] ∧ encode .iny = [0xC8] ∧ encode .dex = [0xCA] ∧ encode .dey = [0x88]

/-- R132, R220, R221, R226 to R229, the memory forms of INC, DEC, ASL, LSR, ROL, ROR: the old byte is read, written back, and the new
byte written; C is the bit shifted out, and INC and DEC do not write it. -/
def Obligations.ModifyMemory : Prop :=
  ∀ (i : Instr) (m : MemOperand) (s : State), i.form = .src (.mem m) →
    let old := oldByte m s
    let effect (new : Byte) (c : Bool) : Prop := ∃ t, exec i s = .next t ∧ Stored (s.target m) new s t ∧
      t.cpu = { s.cpu with c := c, z := new == 0, n := new.getLsbD 7 } ∧
      ∃ u, Untouched s u ∧ u.cpu = s.cpu ∧
        t = memWrite (s.target m) new { memWrite (s.target m) old u with cpu := t.cpu }
    (i.mnem = .inc → effect (old + 1) s.cpu.c) ∧ (i.mnem = .dec → effect (old - 1) s.cpu.c) ∧
    (i.mnem = .asl → effect (BitVec.ofNat 8 (2 * old.toNat)) (decide (128 ≤ old.toNat))) ∧
    (i.mnem = .lsr → effect (BitVec.ofNat 8 (old.toNat / 2)) (decide (old.toNat % 2 = 1))) ∧
    (i.mnem = .rol → effect (BitVec.ofNat 8 (2 * old.toNat + s.cpu.c.toNat)) (decide (128 ≤ old.toNat))) ∧
    (i.mnem = .ror → effect (BitVec.ofNat 8 (old.toNat / 2 + 128 * s.cpu.c.toNat)) (decide (old.toNat % 2 = 1)))

/-- R133, R226 to R229, the accumulator forms of ASL, LSR, ROL, ROR. -/
def Obligations.ModifyAccumulator : Prop :=
  ∀ s : State,
    let old := s.cpu.a
    let effect (i : Instr) (new : Byte) (c : Bool) : Prop := ∃ t, exec i s = .next t ∧ Untouched s t ∧
      t.cpu = { s.cpu with a := new, c := c, z := new == 0, n := new.getLsbD 7 }
    effect .aslAcc (BitVec.ofNat 8 (2 * old.toNat)) (decide (128 ≤ old.toNat)) ∧
    effect .lsrAcc (BitVec.ofNat 8 (old.toNat / 2)) (decide (old.toNat % 2 = 1)) ∧
    effect .rolAcc (BitVec.ofNat 8 (2 * old.toNat + s.cpu.c.toNat)) (decide (128 ≤ old.toNat)) ∧
    effect .rorAcc (BitVec.ofNat 8 (old.toNat / 2 + 128 * s.cpu.c.toNat)) (decide (old.toNat % 2 = 1))

/-! Control transfer. -/

/-- R240, R143, JMP: the operand word, or the word at it with the high byte read from the page of the low one. -/
def Obligations.Jumps : Prop :=
  ∀ (l h : Byte) (s : State),
    (∃ t, exec (.jmpAbs l h) s = .next t ∧ Untouched s t ∧ t.cpu = { s.cpu with pc := word h l }) ∧
    (∃ t, exec (.jmpInd l h) s = .next t ∧ Untouched s t ∧ (∃ target, t.cpu = { s.cpu with pc := target }) ∧
      (placeable s (word h l) = true → placeable s (word h (l + 1)) = true →
        t.cpu.pc = s.memoryWord (word h l) (word h (l + 1))))

/-- R241, JSR: the address of its last byte is pushed, high byte first, and PC becomes the operand word, whose high byte is read
after the pushes. -/
def Obligations.Call : Prop :=
  ∀ (l h : Byte) (s : State),
    ∃ t, exec (.jsrAbs l h) s = .next t ∧ StackFrame 2 s t ∧
      t.memoryByte (word 0x01 s.cpu.s) = hi8 s.cpu.pc ∧ t.memoryByte (word 0x01 (s.cpu.s - 1)) = lo8 s.cpu.pc ∧
      (∃ high, t.cpu = { s.cpu with s := s.cpu.s - 2, pc := word high l }) ∧
      (placeable s s.cpu.pc = true → hi8 t.cpu.pc = t.memoryByte s.cpu.pc)

/-- R242, RTS: the pulled word plus one. -/
def Obligations.Return : Prop :=
  ∀ s : State, ∃ t, exec .rts s = .next t ∧ Untouched s t ∧
    t.cpu = { s.cpu with
      s := s.cpu.s + 2
      pc := s.memoryWord (word 0x01 (s.cpu.s + 1)) (word 0x01 (s.cpu.s + 2)) + 1 }

/-- R243 to R251, the branches: taken on their condition, to PC plus the sign-extended offset; no flag changes. The opcode and the
offset are two cycles; a taken branch spends one more, or two across a page. -/
def Obligations.Branches : Prop :=
  ∀ (i : Instr) (o : Byte) (s : State) (cond : Bool), i.form = .rel o → i.mnem.condition s.cpu = some cond →
    let next := s.cpu.pc
    let target := BitVec.ofInt 16 (next.toNat + o.toInt)
    ∃ t, exec i s = .next t ∧ Untouched s t ∧ t.cpu = { s.cpu with pc := if cond then target else next } ∧
      (Quiet s → t.bus.cyc = s.bus.cyc + (if cond then (if hi8 target = hi8 next then 1 else 2) else 0))

/-- R260 to R267, the flag instructions and NOP: one flag and nothing else. -/
def Obligations.FlagInstructions : Prop :=
  ∀ s : State,
    let effect (i : Instr) (c : Cpu) : Prop := ∃ t, exec i s = .next t ∧ Untouched s t ∧ t.cpu = c
    effect .clc { s.cpu with c := false } ∧ effect .sec { s.cpu with c := true } ∧
    effect .cli { s.cpu with i := false } ∧ effect .sei { s.cpu with i := true } ∧
    effect .cld { s.cpu with d := false } ∧ effect .sed { s.cpu with d := true } ∧
    effect .clv { s.cpu with v := false } ∧ effect .nop s.cpu ∧
    encode .clc = [0x18] ∧ encode .sec = [0x38] ∧ encode .cli = [0x58] ∧ encode .sei = [0x78] ∧ encode .cld = [0xD8] ∧
    encode .sed = [0xF8] ∧ encode .clv = [0xB8] ∧ encode .nop = [0xEA]

/-! Exceptions. -/

/-- R268, R322, BRK: the address after the padding byte and the flags with B = 1 are pushed, I is set, PC is the IRQ/BRK vector. -/
def Obligations.SoftwareInterrupt : Prop :=
  ∀ s : State,
    ∃ t, exec .brk s = .next t ∧ StackFrame 3 s t ∧
      t.cpu = { s.cpu with s := s.cpu.s - 3, i := true, pc := s.memoryWord 0xFFFE 0xFFFF } ∧
      t.memoryByte (word 0x01 s.cpu.s) = hi8 (s.cpu.pc + 1) ∧
      t.memoryByte (word 0x01 (s.cpu.s - 1)) = lo8 (s.cpu.pc + 1) ∧
      t.memoryByte (word 0x01 (s.cpu.s - 2)) =
        BitVec.ofBool s.cpu.n ++ BitVec.ofBool s.cpu.v ++ (0b11 : BitVec 2) ++ BitVec.ofBool s.cpu.d ++
          BitVec.ofBool s.cpu.i ++ BitVec.ofBool s.cpu.z ++ BitVec.ofBool s.cpu.c

/-- R328 to R330, NMI and IRQ entry: the exact return address and the flags with B = 0 are pushed, I is set, PC is the vector. The NMI
entry clears `nmi_pending` before its first access, so the flag is clear after it unless an edge comes in it (R331): none comes with
NMIs disabled in PPUCTRL, and none in a quiet state inside vblank whose edge has been seen. The IRQ entry leaves a pending NMI, and the
IRQ sources, as they are. -/
def Obligations.InterruptEntry : Prop :=
  ∀ s : State,
    let entered (t : State) (lo hi : Addr) : Prop :=
      StackFrame 3 s t ∧ t.cpu = { s.cpu with s := s.cpu.s - 3, i := true, pc := s.memoryWord lo hi } ∧
      t.memoryByte (word 0x01 s.cpu.s) = hi8 s.cpu.pc ∧ t.memoryByte (word 0x01 (s.cpu.s - 1)) = lo8 s.cpu.pc ∧
      t.memoryByte (word 0x01 (s.cpu.s - 2)) =
        BitVec.ofBool s.cpu.n ++ BitVec.ofBool s.cpu.v ++ (0b10 : BitVec 2) ++ BitVec.ofBool s.cpu.d ++
          BitVec.ofBool s.cpu.i ++ BitVec.ofBool s.cpu.z ++ BitVec.ofBool s.cpu.c
    entered (nmiEntry s) 0xFFFA 0xFFFB ∧ entered (irqEntry s) 0xFFFE 0xFFFF ∧
    nmiEntry s = nmiEntry { s with bus := { s.bus with nmiPending := false } } ∧
    (s.ppu.ctrl.getLsbD 7 = false → (nmiEntry s).bus.nmiPending = false) ∧
    (Quiet s → placeable s s.cpu.pc = true → s.bus.nmiPrev = true → s.ppu.vblankFlag = true → s.ppu.ctrl.getLsbD 7 = true →
      s.ppu.scanline + 1 < s.image.region.preLine → s.ppu.dot ≤ 340 → (nmiEntry s).bus.nmiPending = false) ∧
    (s.bus.nmiPending = true → (irqEntry s).bus.nmiPending = true) ∧
    (Quiet s → placeable s s.cpu.pc = true → irqLine s = true → irqLine (irqEntry s) = true)

/-- R269, R332, RTI: flags, then the exact address, are pulled; bits 5 and 4 of the flag byte are ignored. -/
def Obligations.ReturnFromInterrupt : Prop :=
  ∀ s : State,
    let p := s.memoryByte (word 0x01 (s.cpu.s + 1))
    ∃ t, exec .rti s = .next t ∧ Untouched s t ∧
      t.cpu = { s.cpu with
        s := s.cpu.s + 3
        pc := s.memoryWord (word 0x01 (s.cpu.s + 2)) (word 0x01 (s.cpu.s + 3))
        n := p.getLsbD 7
        v := p.getLsbD 6
        d := p.getLsbD 3
        i := p.getLsbD 2
        z := p.getLsbD 1
        c := p.getLsbD 0 }

/-- R632: the reset sequence reads the stack without writing it, leaves S three lower, sets I and loads PC from the reset vector; it
clears the request, and touches no other register, no memory and no device register. -/
def Obligations.ResetSequence : Prop :=
  ∀ s : State,
    let t := resetSequence s
    t.bus.resetPending = false ∧ Untouched { s with bus := { s.bus with resetPending := false } } t ∧
    t.cpu = { s.cpu with s := s.cpu.s - 3, i := true, pc := s.memoryWord 0xFFFC 0xFFFD } ∧
    (Quiet s → t.bus.cyc = s.bus.cyc + 7)

/-- R241, R242, R252: a subroutine that leaves the two stack bytes and S as JSR left them returns to the instruction after the JSR,
with S as it was before. -/
def Obligations.CallThenReturn : Prop :=
  ∀ (l h : Byte) (s t u : State), exec (.jsrAbs l h) s = .next t → u.cpu.s = t.cpu.s →
    u.memoryByte (word 0x01 s.cpu.s) = t.memoryByte (word 0x01 s.cpu.s) →
    u.memoryByte (word 0x01 (s.cpu.s - 1)) = t.memoryByte (word 0x01 (s.cpu.s - 1)) →
    ∃ v, exec .rts u = .next v ∧ v.cpu = { u.cpu with pc := s.cpu.pc + 1, s := s.cpu.s }

/-- R328 to R333, R268, R269: a handler that leaves the three stack bytes and S as the entry left them returns, by RTI, to the
interrupted program with its PC, S and flags: after an NMI or IRQ to the instruction that was to run next, after BRK to the byte
after its padding byte. -/
def Obligations.InterruptThenReturn : Prop :=
  ∀ (s t u : State) (pc : Addr),
    (t = nmiEntry s ∧ pc = s.cpu.pc ∨ t = irqEntry s ∧ pc = s.cpu.pc ∨ exec .brk s = .next t ∧ pc = s.cpu.pc + 1) →
    u.cpu.s = t.cpu.s → (∀ k : Byte, k.toNat < 3 →
      u.memoryByte (word 0x01 (s.cpu.s - k)) = t.memoryByte (word 0x01 (s.cpu.s - k))) →
    ∃ v, exec .rti u = .next v ∧
      v.cpu = { s.cpu with a := u.cpu.a, x := u.cpu.x, y := u.cpu.y, pc := pc }

/-! Unofficial opcodes. -/

/-- R281 to R284, R287, R288, SLO, RLA, SRE, RRA, DCP, ISC under the documented behaviour: the new byte is stored and the second
operation applied to it. -/
def Obligations.CombinedModify : Prop :=
  ∀ (i : Instr) (m : MemOperand) (s : State), i.form = .src (.mem m) → s.cfg.unofficial = .documented →
    let old := oldByte m s
    let a := s.cpu.a
    let effect (new : Byte) (c : Cpu) : Prop := ∃ t, exec i s = .next t ∧ Stored (s.target m) new s t ∧ t.cpu = c
    let logic (r : Byte) (carry : Bool) : Cpu := { s.cpu with a := r, c := carry, z := r == 0, n := r.getLsbD 7 }
    let shl := BitVec.ofNat 8 (2 * old.toNat)
    let shr := BitVec.ofNat 8 (old.toNat / 2)
    let rol := BitVec.ofNat 8 (2 * old.toNat + s.cpu.c.toNat)
    let ror := BitVec.ofNat 8 (old.toNat / 2 + 128 * s.cpu.c.toNat)
    let sum := a.toNat + ror.toNat + old.toNat % 2
    let signedSum := a.toInt + ror.toInt + (old.toNat % 2 : Nat)
    let difference := (a.toNat : Int) - (old + 1).toNat - (1 - s.cpu.c.toNat)
    let signedDifference := a.toInt - (old + 1).toInt - (1 - s.cpu.c.toNat)
    (i.mnem = .slo → effect shl (logic (a ||| shl) (decide (128 ≤ old.toNat)))) ∧
    (i.mnem = .rla → effect rol (logic (a &&& rol) (decide (128 ≤ old.toNat)))) ∧
    (i.mnem = .sre → effect shr (logic (a ^^^ shr) (decide (old.toNat % 2 = 1)))) ∧
    (i.mnem = .rra → effect ror
      { logic (BitVec.ofNat 8 sum) (decide (256 ≤ sum)) with v := decide (signedSum < -128 ∨ 127 < signedSum) }) ∧
    (i.mnem = .dcp → effect (old - 1)
      { s.cpu with
        c := decide ((old - 1).toNat ≤ a.toNat)
        z := decide (a = old - 1)
        n := (a - (old - 1)).getLsbD 7 }) ∧
    (i.mnem = .isc → effect (old + 1)
      { logic (BitVec.ofInt 8 difference) (decide (0 ≤ difference)) with
        v := decide (signedDifference < -128 ∨ 127 < signedDifference) })

/-- R286, R289 to R292, R294, R295, R300, LAX, ANC, ALR, ARR, AXS, XAA, LXA, LAS under the documented behaviour, for every value of the
constants of XAA and LXA (spec/93_implementation_defined.md U2). -/
def Obligations.CombinedRead : Prop :=
  ∀ (i : Instr) (x : Src) (s : State), i.form = .src x → s.cfg.unofficial = .documented →
    let m := (readSrc x s).1
    let c := s.cpu
    let effect (r : Byte) (d : Cpu) : Prop := ∃ t, exec i s = .next t ∧ Untouched s t ∧
      t.cpu = { d with z := r == 0, n := r.getLsbD 7 }
    let conj := c.a &&& m
    let turned := BitVec.ofNat 8 (conj.toNat / 2 + 128 * c.c.toNat)
    let ax := c.a &&& c.x
    (i.mnem = .lax → effect m { c with a := m, x := m }) ∧
    (i.mnem = .anc → effect conj { c with a := conj, c := conj.getLsbD 7 }) ∧
    (i.mnem = .alr → effect (BitVec.ofNat 8 (conj.toNat / 2))
      { c with a := BitVec.ofNat 8 (conj.toNat / 2), c := conj.getLsbD 0 }) ∧
    (i.mnem = .arr → effect turned
      { c with a := turned, c := turned.getLsbD 6, v := turned.getLsbD 6 != turned.getLsbD 5 }) ∧
    (i.mnem = .axs → effect (ax - m) { c with x := ax - m, c := decide (m.toNat ≤ ax.toNat) }) ∧
    (i.mnem = .xaa → effect ((c.a ||| s.cfg.magicXaa) &&& c.x &&& m)
      { c with a := (c.a ||| s.cfg.magicXaa) &&& c.x &&& m }) ∧
    (i.mnem = .lxa → effect ((c.a ||| s.cfg.magicLxa) &&& m)
      { c with a := (c.a ||| s.cfg.magicLxa) &&& m, x := (c.a ||| s.cfg.magicLxa) &&& m }) ∧
    (i.mnem = .las → effect (m &&& c.s) { c with a := m &&& c.s, x := m &&& c.s, s := m &&& c.s })

/-- R296 to R299, SHA, SHY, SHX, TAS under the documented behaviour: the register AND the high byte of the base plus one is stored at
the indexed address, whose high byte is the stored value when the indexing crossed a page. Unstable on hardware: the rules' own
outcome (spec/93_implementation_defined.md U3; log 20). -/
def Obligations.StoreHighByte : Prop :=
  ∀ (i : Instr) (s : State), s.cfg.unofficial = .documented →
    let c := s.cpu
    let effect (c' : Cpu) (reg index : Byte) (base : Addr) : Prop :=
      let v := reg &&& (hi8 base + 1)
      let ea := base + index.setWidth 16
      let target := if 256 ≤ (lo8 base).toNat + index.toNat then word v (lo8 ea) else ea
      ∃ t, exec i s = .next t ∧ t.cpu = c' ∧ Stored target v s t
    (∀ l h, i.mnem = .shy → i.form = .src (.mem (.abx l h)) → effect c c.y c.x (word h l)) ∧
    (∀ l h, i.mnem = .shx → i.form = .src (.mem (.aby l h)) → effect c c.x c.y (word h l)) ∧
    (∀ l h, i.mnem = .sha → i.form = .src (.mem (.aby l h)) → effect c (c.a &&& c.x) c.y (word h l)) ∧
    (∀ z, i.mnem = .sha → i.form = .src (.mem (.izy z)) →
      effect c (c.a &&& c.x) c.y (s.memoryWord (word 0x00 z) (word 0x00 (z + 1)))) ∧
    (∀ l h, i.mnem = .tas → i.form = .src (.mem (.aby l h)) →
      effect { c with s := c.a &&& c.x } (c.a &&& c.x) c.y (word h l))

/-- R301 to R306, R311, R312: the unofficial NOPs, JAM, and under `UNOFFICIAL = nop` every unofficial opcode change no register, flag
or memory. JAM logs its opcode and address and marks that a hardware processor hangs here (U5; log 21); under `nop` the others log
theirs; under the documented behaviour the NOPs log nothing. -/
def Obligations.NopsAndJam : Prop :=
  ∀ (i : Instr) (s : State),
    (i.mnem = .nopU → s.cfg.unofficial = .documented →
      ∃ t, exec i s = .next t ∧ Untouched s t ∧ t.cpu = s.cpu ∧ t.diag = s.diag) ∧
    (i.mnem = .jam → ∃ t, exec i s = .next t ∧ Untouched s t ∧ t.cpu = s.cpu ∧ t.jamSeen = true ∧
      t.diag = s.diag ++ [.illegalOpcode i.opcode (s.cpu.pc - 1)]) ∧
    (s.cfg.unofficial = .nop → i.mnem.official = false → i.mnem ≠ .jam →
      ∃ t, exec i s = .next t ∧ Untouched s t ∧ t.cpu = s.cpu ∧
        t.diag = s.diag ++ [.illegalOpcode i.opcode (s.cpu.pc - BitVec.ofNat 16 (encode i).length)])

/-! Frames and whole-machine rules. -/

/-- R46, R131, R370: an instruction that makes no write access changes no memory, no device register that only writes change, and,
while no OAM DMA is pending, no sprite memory. -/
def Obligations.NonStoringFrame : Prop :=
  ∀ (i : Instr) (s t : State), i.stores s.cfg.unofficial = false → exec i s = .next t →
    Untouched s t ∧ (s.bus.oamdmaPending = false → OamUntouched s t)

/-- R131, R132, R439: a storing instruction with a memory operand changes memory at its effective address alone, and sprite memory (no
OAM DMA pending) only through OAMDATA. The target of SHA, SHX, SHY
and TAS is that of `StoreHighByte`. -/
def Obligations.StoringFrame : Prop :=
  ∀ (i : Instr) (m : MemOperand) (s t : State), i.stores s.cfg.unofficial = true → i.form = .src (.mem m) →
    i.mnem ≠ .jsr → i.mnem ≠ .sha → i.mnem ≠ .shx → i.mnem ≠ .shy → i.mnem ≠ .tas →
    exec i s = .next t →
    StoreFrame (effAddr i.mnem.accClass m s).1 s t ∧
    ∀ b : Addr, placeable s b = true → (0x8000 ≤ b.toNat → (s.target m).toNat < 0x8000) →
      ¬(s.target m = b ∨ (s.target m).toNat < 0x2000 ∧ b.toNat < 0x2000 ∧ (s.target m).toNat % 2048 = b.toNat % 2048) →
      t.memoryByte b = s.memoryByte b

/-- R31 to R34, R37 to R42: an instruction whose mnemonic the rule of a register or a flag does not list leaves it unchanged. -/
def Obligations.WritersOfRegistersAndFlags : Prop :=
  ∀ (i : Instr) (s t : State), exec i s = .next t →
    (i.mnem.writesA = false → t.cpu.a = s.cpu.a) ∧ (i.mnem.writesX = false → t.cpu.x = s.cpu.x) ∧
    (i.mnem.writesY = false → t.cpu.y = s.cpu.y) ∧ (i.mnem.writesS = false → t.cpu.s = s.cpu.s) ∧
    (i.mnem.writesC = false → t.cpu.c = s.cpu.c) ∧
    (i.mnem.writesNZ = false → t.cpu.z = s.cpu.z ∧ t.cpu.n = s.cpu.n) ∧
    (i.mnem.writesI = false → t.cpu.i = s.cpu.i) ∧ (i.mnem.writesD = false → t.cpu.d = s.cpu.d) ∧
    (i.mnem.writesV = false → t.cpu.v = s.cpu.v)

/-- R370, R46: no step changes the image, the configuration or the power state, and none sets the reset request. -/
def Obligations.ImageConstant : Prop :=
  ∀ s t : State, step s = .next t →
    t.image = s.image ∧ t.cfg = s.cfg ∧ t.power = s.power ∧ t.bus.resetPending = false

/-- Every step keeps the canonical form of the memories, `mclk = cyc * CPU_DIV` (R597), the PPU's position inside its frame (R450),
the attribute bytes' missing bits (R439), and the APU's counters in range. -/
def Obligations.StepKeepsInvariant : Prop :=
  ∀ s t : State, s.Inv → step s = .next t → t.Inv

/-- The invariant holds after reset. -/
def Obligations.ResetInvariant : Prop := State.reset.Inv

/-! Reset values. -/

/-- R56, R504, R580, R611, R631: the values of reset, every field of the CPU, the PPU, the APU and the ports. The image, `RAM_INIT`
and the other parameters are the model's choice (logs 2 to 4), as are `wantVideo` (log 4), the DMC's `buffer` (log 10), `sprLo` (log 9)
and `fb` as none, every byte 0 (log 5). -/
def Obligations.ResetValues : Prop :=
  let s := State.reset
  let envelope : Envelope := { halt := false, const := false, vol := 0, start := false, div := 0, decay := 0 }
  let pulse : Pulse :=
    { duty := 0, env := envelope, swEn := false, swPeriod := 0, swNeg := false, swShift := 0, swReload := false, swDiv := 0,
      period := 0, timer := 0, seq := 0, length := 0, enabled := false }
  s.cpu = { a := 0, x := 0, y := 0, s := 0, pc := 0, c := false, z := false, i := true, d := false, v := false, n := false } ∧
  s.bus =
    { db := 0, nmiPrev := false, nmiPending := false, stall := 0, oamdmaPending := false, oamdmaPage := 0, cyc := 0, mclk := 0,
      resetPending := true } ∧
  (∀ n, s.ram.read n = s.cfg.ramInit.read n ∧ s.prgRam.read n = 0 ∧ s.chrRam.read n = 0 ∧ s.ciram.read n = 0) ∧
  s.ppu =
    { ctrl := 0, mask := 0, vblankFlag := false, sprite0Hit := false, spriteOverflow := false, vblSuppress := false,
      oamaddr := 0, v := 0, t := 0, x := 0, w := false, readBuffer := 0, ioLatch := 0,
      oam := [], soam := Vector.replicate 32 0xFF, soamCount := 0, spr0Next := false, pal := [],
      scanline := 0, dot := 0, oddFrame := false, frameCount := 0, abus := 0,
      ntByte := 0, atBits := 0, ptLo := 0, ptHi := 0, bgLo := 0, bgHi := 0, atLo := 0, atHi := 0, sprLo := 0,
      units := Vector.replicate 8 { patLo := 0, patHi := 0, attr := 0, xpos := 0, isS0 := false },
      fbWork := [], fb := none, wantVideo := true } ∧
  (∀ n, s.ppu.oam.read n = 0 ∧ s.ppu.pal.read n = 0 ∧ s.ppu.fbWork.read n = 0) ∧
  s.apu =
    { pulse1 := pulse, pulse2 := pulse
      triangle :=
        { control := false, linReloadVal := 0, lin := 0, linReload := false, period := 0, timer := 0, seq := 0, length := 0,
          enabled := false }
      noise :=
        { env := envelope, mode := false, periodIdx := 0, timer := 0, lfsr := 1, length := 0, enabled := false }
      dmc :=
        { irqEn := false, loop := false, rateIdx := 0, level := 0, addrReg := 0, lenReg := 0, curAddr := 0xC000, remaining := 0,
          buffer := 0, bufferEmpty := true, shift := 0, bits := 8, silence := true, timer := 0 }
      fcMode := false, fcInhibit := false, fc := 0, fcResetDelay := 0, frameIrq := false, dmcIrq := false, sampleAcc := 0,
      audioWork := [] } ∧
  s.input =
    { strobe := false, sh0 := 0, sh1 := 0, sh2 := 0
      latched := { pad0 := 0, pad1 := 0, pad2 := 0, gunX := 0, gunY := 0, gunTrigger := false } } ∧
  s.power = .powered ∧ s.audioMark = 0

/-- R595, R631 (R56, R504, R580, R611): a soft reset of a powered machine sets I, requests the reset sequence, clears what the table
says, and changes no other field: registers, flags, memories, sprite and palette memory, the mapper, the ports, the clock counters and
every other field of the APU are as before. In OFF it does nothing. -/
def Obligations.SoftReset : Prop :=
  (∀ s : State, s.power = .off → s.softReset = s) ∧
  ∀ s : State, s.power ≠ .off →
    s.softReset = { s with
      cpu := { s.cpu with i := true }
      bus := { s.bus with
        nmiPrev := false, nmiPending := false, stall := 0, oamdmaPending := false, oamdmaPage := 0, resetPending := true }
      ppu := { s.ppu with
        ctrl := 0, mask := 0, vblankFlag := false, sprite0Hit := false, spriteOverflow := false, vblSuppress := false,
        t := 0, x := 0, w := false, readBuffer := 0, ioLatch := 0,
        soam := Vector.replicate 32 0xFF, soamCount := 0, spr0Next := false,
        scanline := 0, dot := 0, oddFrame := false, frameCount := 0, abus := 0,
        ntByte := 0, atBits := 0, ptLo := 0, ptHi := 0, bgLo := 0, bgHi := 0, atLo := 0, atHi := 0, sprLo := 0,
        units := Vector.replicate 8 { patLo := 0, patHi := 0, attr := 0, xpos := 0, isS0 := false } }
      apu := { s.apu with
        pulse1 := { s.apu.pulse1 with enabled := false, length := 0 }
        pulse2 := { s.apu.pulse2 with enabled := false, length := 0 }
        triangle := { s.apu.triangle with enabled := false, length := 0 }
        noise := { s.apu.noise with enabled := false, length := 0 }
        dmc := { s.apu.dmc with remaining := 0 }
        fc := 0, fcResetDelay := 0, frameIrq := false, dmcIrq := false } }

/-! The PPU. -/

/-- R437, R77: reading PPUSTATUS through any of its mirrors returns the three flags over the I/O latch, clears the vblank flag and the
write toggle, and at (241, 1) suppresses the flag about to be set; no NMI edge is seen at the end of its cycle. A write only loads the
I/O latch. -/
def Obligations.StatusRead : Prop :=
  ∀ (a : Addr) (s : State), 0x2000 ≤ a.toNat → a.toNat < 0x4000 → a.toNat % 8 = 2 →
    let r := busRead a s
    let value : Byte := BitVec.ofBool s.ppu.vblankFlag ++ BitVec.ofBool s.ppu.sprite0Hit ++
      BitVec.ofBool s.ppu.spriteOverflow ++ s.ppu.ioLatch.extractLsb' 0 5
    r.1 = value ∧
    r.2.ppu = { s.ppu with
      vblankFlag := false
      w := false
      ioLatch := value
      vblSuppress := s.ppu.vblSuppress || decide (s.ppu.scanline = 241 ∧ s.ppu.dot = 1) } ∧
    (endCycle r.2).bus.nmiPending = s.bus.nmiPending ∧ (endCycle r.2).bus.nmiPrev = false ∧
    (memRead a s).1 = (busRead a (beginCycle (preRead s))).1 ∧
    ∀ v, (busWrite a v s).ppu = { s.ppu with ioLatch := v }

/-- R457, R455: the dot at (241, 1) sets the vblank flag unless it was suppressed, the pre-render dot 1 clears the three flags, and no
other dot changes the vblank flag. R49, R458: the NMI latch is set on a rising edge of `vblank_flag AND PPUCTRL[7]`, sampled at the
end of every CPU cycle. -/
def Obligations.VblankAndNmi : Prop :=
  ∀ s : State,
    let request := s.ppu.vblankFlag && s.ppu.ctrl.getLsbD 7
    (endCycle s).bus.nmiPending = (s.bus.nmiPending || (request && !s.bus.nmiPrev)) ∧ (endCycle s).bus.nmiPrev = request ∧
    (s.ppu.scanline = 241 → s.ppu.dot = 1 →
      (runDot s).ppu.vblankFlag = (s.ppu.vblankFlag || !s.ppu.vblSuppress) ∧ (runDot s).ppu.vblSuppress = false) ∧
    (s.ppu.scanline = s.image.region.preLine → s.ppu.dot = 1 →
      (runDot s).ppu.vblankFlag = false ∧ (runDot s).ppu.sprite0Hit = false ∧ (runDot s).ppu.spriteOverflow = false) ∧
    (¬(s.ppu.scanline = 241 ∧ s.ppu.dot = 1) → ¬(s.ppu.scanline = s.image.region.preLine ∧ s.ppu.dot = 1) →
      (runDot s).ppu.vblankFlag = s.ppu.vblankFlag)

/-- R440, R441: the two writes of PPUADDR load `v`, and the two writes of PPUSCROLL load `t` and `x`, through the write toggle. -/
def Obligations.ScrollAndAddressWrites : Prop :=
  ∀ (s : State) (first second : Byte), s.ppu.w = false →
    let addressed := busWrite 0x2006 second (busWrite 0x2006 first s)
    let scrolled := busWrite 0x2005 second (busWrite 0x2005 first s)
    addressed.ppu.v.toNat = (first.toNat % 64) * 256 + second.toNat ∧ addressed.ppu.w = false ∧
    addressed.ppu.t = addressed.ppu.v ∧
    coarseX scrolled.ppu.t = first.extractLsb' 3 5 ∧ scrolled.ppu.x = first.extractLsb' 0 3 ∧
    coarseY scrolled.ppu.t = second.extractLsb' 3 5 ∧ fineY scrolled.ppu.t = second.extractLsb' 0 3 ∧
    scrolled.ppu.t.extractLsb' 10 2 = s.ppu.t.extractLsb' 10 2 ∧ scrolled.ppu.w = false ∧ scrolled.ppu.v = s.ppu.v

/-- R442, R446: a PPUDATA write in the palette's range stores 6 bits at the entry that `pal_index` selects, where entries 0x10, 0x14,
0x18, 0x1C are entries 0x00, 0x04, 0x08, 0x0C, and `v` advances by 1 or 32 when not rendering. -/
def Obligations.PaletteWrite : Prop :=
  ∀ (s : State) (value : Byte), 0x3F00 ≤ s.ppu.v.toNat % 0x4000 → s.ppu.renderingNow s.image.region = false →
    let t := busWrite 0x2007 value s
    (∀ b, 0x3F00 ≤ b → ppuRead t t.ppu b =
      if palIndex b = palIndex (s.ppu.v.toNat % 0x4000) then value &&& 0x3F else ppuRead s s.ppu b) ∧
    t.ppu.v = s.ppu.v + (if s.ppu.ctrl.getLsbD 2 then 32 else 1) ∧
    t.chrRam = s.chrRam ∧ t.ciram = s.ciram ∧
    palIndex 0x3F10 = palIndex 0x3F00 ∧ palIndex 0x3F14 = palIndex 0x3F04 ∧ palIndex 0x3F18 = palIndex 0x3F08 ∧
    palIndex 0x3F1C = palIndex 0x3F0C

/-! The APU, the mappers, the ports. -/

/-- R529, R530: reading 0x4015 returns the channel status and clears the frame IRQ flag; writing it enables and restarts the channels,
a disabled channel's length becoming 0, and clears the DMC IRQ flag. -/
def Obligations.ApuStatus : Prop :=
  ∀ (s : State) (v : Byte),
    (busRead 0x4015 s).1 = BitVec.ofBool s.apu.dmcIrq ++ BitVec.ofBool s.apu.frameIrq ++ s.bus.db.extractLsb' 5 1 ++
      BitVec.ofBool (decide (0 < s.apu.dmc.remaining.toNat)) ++ BitVec.ofBool (decide (0 < s.apu.noise.length.toNat)) ++
      BitVec.ofBool (decide (0 < s.apu.triangle.length.toNat)) ++ BitVec.ofBool (decide (0 < s.apu.pulse2.length.toNat)) ++
      BitVec.ofBool (decide (0 < s.apu.pulse1.length.toNat)) ∧
    (busRead 0x4015 s).2.apu = { s.apu with frameIrq := false } ∧
    (busWrite 0x4015 v s).apu = { s.apu with
      pulse1 := { s.apu.pulse1 with enabled := v.getLsbD 0, length := if v.getLsbD 0 then s.apu.pulse1.length else 0 }
      pulse2 := { s.apu.pulse2 with enabled := v.getLsbD 1, length := if v.getLsbD 1 then s.apu.pulse2.length else 0 }
      triangle := { s.apu.triangle with enabled := v.getLsbD 2, length := if v.getLsbD 2 then s.apu.triangle.length else 0 }
      noise := { s.apu.noise with enabled := v.getLsbD 3, length := if v.getLsbD 3 then s.apu.noise.length else 0 }
      dmc :=
        if v.getLsbD 4 = false then { s.apu.dmc with remaining := 0 }
        else if s.apu.dmc.remaining = 0 then
          { s.apu.dmc with
            curAddr := BitVec.ofNat 16 (0xC000 + s.apu.dmc.addrReg.toNat * 64)
            remaining := BitVec.ofNat 12 (s.apu.dmc.lenReg.toNat * 16 + 1) }
        else s.apu.dmc
      dmcIrq := false }

/-- R383: no register value addresses outside the image: every PRG offset, CHR offset and nametable offset is inside its array, the
nametable RAM being 2 KiB, or 4 KiB with `four_screen` (R375, R385). -/
def Obligations.BanksInRange : Prop :=
  ∀ (im : Image) (m : Mapper), 0 < im.prgCount →
    (∀ a, 0x8000 ≤ a → a < 0x10000 → prgOffset im m a < im.prgSize) ∧
    (∀ p, p < 0x2000 → chrOffset im m p < im.chrSize) ∧
    (∀ p, 0x2000 ≤ p → p < 0x3F00 → ntOffset im m p < if im.fourScreen then 4096 else 2048)

/-- R394, R395, UNROM: a write stores the byte AND the ROM byte at its address, and logs a bus conflict when the two differ. -/
def Obligations.UnromBusConflict : Prop :=
  ∀ (a : Addr) (v bank : Byte) (s : State), s.mapper = .unrom bank → 0x8000 ≤ a.toNat →
    (busWrite a v s).mapper = .unrom (v &&& s.memoryByte a) ∧
    (busWrite a v s).diag = s.diag ++ (if v = s.memoryByte a then [] else [.busConflict a v (s.memoryByte a)])

/-- R400, MMC1: after a reset write, five serial writes that are not in consecutive cycles load the register that the fifth address
selects with the five bits, the first write's lowest. -/
def Obligations.Mmc1SerialLoad : Prop :=
  ∀ (r : Mmc1) (v0 v1 v2 v3 v4 : Byte) (a0 a1 a2 a3 a4 c0 c1 c2 c3 c4 : Nat),
    r.sr = 0 → r.srCount = 0 →
    v0.getLsbD 7 = false → v1.getLsbD 7 = false → v2.getLsbD 7 = false → v3.getLsbD 7 = false → v4.getLsbD 7 = false →
    (∀ c, r.lastWriteCyc = some c → c + 1 < c0) → c0 + 1 < c1 → c1 + 1 < c2 → c2 + 1 < c3 → c3 + 1 < c4 →
    let t := mmc1Write a4 v4 c4 (mmc1Write a3 v3 c3 (mmc1Write a2 v2 c2 (mmc1Write a1 v1 c1 (mmc1Write a0 v0 c0 r))))
    let value : BitVec 5 := v4.extractLsb' 0 1 ++ v3.extractLsb' 0 1 ++ v2.extractLsb' 0 1 ++ v1.extractLsb' 0 1 ++
      v0.extractLsb' 0 1
    let idle := { r with sr := 0, srCount := 0, lastWriteCyc := some c4 }
    ((a4 / 0x2000) % 4 = 0 → t = { idle with control := value }) ∧
    ((a4 / 0x2000) % 4 = 1 → t = { idle with chr0 := value }) ∧
    ((a4 / 0x2000) % 4 = 2 → t = { idle with chr1 := value }) ∧
    ((a4 / 0x2000) % 4 = 3 → t = { idle with prg := value })

/-- R418, R420, MMC3: after a reload request, N in the latch gives an IRQ at the clock N + 1 and not before, in both variants; a rise of
A12 clocks the counter only after ten dots of A12 low. -/
def Obligations.Mmc3Interrupt : Prop :=
  ∀ (variant : Mmc3Variant) (r : Mmc3),
    (r.irqReload = true → r.irqEnabled = true → r.mapperIrq = false → ∀ k : Nat,
      (Nat.repeat (mmc3Clock variant) k r).mapperIrq = decide (r.irqLatch.toNat + 1 ≤ k)) ∧
    ∀ abus : BitVec 14, (mapperDot variant abus (.mmc3 r)) =
      (if abus.getLsbD 12 = false then .mmc3 { r with a12Low := min (r.a12Low + 1) 255 }
       else if r.a12Low < 10 then .mmc3 { r with a12Low := 0 }
       else .mmc3 { mmc3Clock variant r with a12Low := 0 })

/-- R608: while the strobe is 0, eight reads of 0x4016 return the bits of the shift register, lowest first, and further reads
return 1. -/
def Obligations.ControllerSerial : Prop :=
  ∀ (s : State) (n : Nat), s.input.strobe = false →
    (busRead 0x4016 (Nat.repeat (fun u => (busRead 0x4016 u).2) n s)).1.getLsbD 0 =
      (if n < 8 then s.input.sh0.getLsbD n else true)
end

