-- ==== Sys2Proof/Laws/Alu.lean ====
section
/-! SUPPORT. Words, the flag byte, and the arithmetic of bytes as integers: the facts that read the flag computations as the rules
write them. -/

namespace Sys2Proof.Machine

/-! Words. -/

theorem word_toNat (h l : Byte) : (word h l).toNat = h.toNat * 256 + l.toNat := by
  unfold word
  rw [BitVec.toNat_append, Nat.shiftLeft_eq]
  rw [Nat.mul_comm, ← Nat.two_pow_add_eq_or_of_lt (i := 8) l.isLt h.toNat]

theorem hi8_toNat (w : Addr) : (hi8 w).toNat = w.toNat / 256 := by
  unfold hi8
  rw [BitVec.extractLsb'_toNat, Nat.shiftRight_eq_div_pow]
  have := w.isLt
  omega

theorem lo8_toNat (w : Addr) : (lo8 w).toNat = w.toNat % 256 := by
  unfold lo8
  rw [BitVec.extractLsb'_toNat, Nat.shiftRight_zero]

theorem hi8_word (h l : Byte) : hi8 (word h l) = h := by
  apply BitVec.eq_of_toNat_eq
  rw [hi8_toNat, word_toNat]
  omega

theorem lo8_word (h l : Byte) : lo8 (word h l) = l := by
  apply BitVec.eq_of_toNat_eq
  rw [lo8_toNat, word_toNat]
  omega

theorem word_hi8_lo8 (w : Addr) : word (hi8 w) (lo8 w) = w := by
  apply BitVec.eq_of_toNat_eq
  rw [word_toNat, hi8_toNat, lo8_toNat]
  omega

/-- The target of a branch over the integers (spec/30_encoding.md R142). -/
theorem branchTarget_eq (pc : Addr) (o : Byte) : branchTarget pc o = BitVec.ofInt 16 (pc.toNat + o.toInt) := by
  unfold branchTarget
  apply BitVec.eq_of_toInt_eq
  have h1 := BitVec.toInt_lt (x := o)
  have h2 := BitVec.le_toInt (x := o)
  have h3 : o.toInt.bmod 256 = o.toInt := by apply Int.bmod_eq_of_le <;> omega
  simp [BitVec.toInt_signExtend, BitVec.toInt_add, h3, BitVec.toInt_eq_toNat_bmod pc]

/-! The flag byte. -/

theorem setP_pByte (b : Bool) (c d : Cpu) : d.setP (c.pByte b) =
    { d with n := c.n, v := c.v, d := c.d, i := c.i, z := c.z, c := c.c } := by
  have h : ∀ n v b e i z k : Bool,
      let p := BitVec.ofBool n ++ BitVec.ofBool v ++ (1 : BitVec 1) ++ BitVec.ofBool b ++ BitVec.ofBool e ++ BitVec.ofBool i
        ++ BitVec.ofBool z ++ BitVec.ofBool k
      p.getLsbD 7 = n ∧ p.getLsbD 6 = v ∧ p.getLsbD 3 = e ∧ p.getLsbD 2 = i ∧ p.getLsbD 1 = z ∧ p.getLsbD 0 = k := by decide
  obtain ⟨h7, h6, h3, h2, h1, h0⟩ := h c.n c.v b c.d c.i c.z c.c
  unfold Cpu.setP Cpu.pByte
  rw [h7, h6, h3, h2, h1, h0]

/-! Addition and subtraction. -/

theorem byte_getLsbD_seven (x : Byte) : x.getLsbD 7 = decide (128 ≤ x.toNat) := by
  have h := BitVec.msb_eq_decide x
  rw [BitVec.msb_eq_getLsbD_last] at h
  exact h

theorem byte_toInt (x : Byte) : x.toInt = if x.toNat < 128 then (x.toNat : Int) else x.toNat - 256 := by
  rw [BitVec.toInt_eq_toNat_cond]
  split <;> split <;> omega

/-- The overflow expression of R200 is a question about three sign bits. -/
theorem overflow_bits (a m r : Byte) : (((a ^^^ r) &&& (m ^^^ r) &&& 0x80) != 0) =
    ((a.getLsbD 7 != r.getLsbD 7) && (m.getLsbD 7 != r.getLsbD 7)) := by
  have key : ∀ x : Byte, ((x &&& 0x80) != 0) = x.getLsbD 7 := by decide +kernel
  rw [key, BitVec.getLsbD_and, BitVec.getLsbD_xor, BitVec.getLsbD_xor]

/-- V of ADC is "the signed sum lies outside -128 .. 127" (spec/42_arithmetic_logic.md R200). -/
theorem overflow_eq (a m : Byte) (c : Bool) :
    (((a ^^^ BitVec.ofNat 8 (a.toNat + m.toNat + c.toNat)) &&& (m ^^^ BitVec.ofNat 8 (a.toNat + m.toNat + c.toNat)) &&&
      0x80) != 0) = decide (a.toInt + m.toInt + c.toNat < -128 ∨ 127 < a.toInt + m.toInt + c.toNat) := by
  rw [overflow_bits, byte_getLsbD_seven, byte_getLsbD_seven, byte_getLsbD_seven, byte_toInt a, byte_toInt m, BitVec.toNat_ofNat]
  have ha := a.isLt
  have hm := m.isLt
  have hc : c.toNat ≤ 1 := Bool.toNat_le c
  have hb : ∀ p q : Prop, [Decidable p] → [Decidable q] → (decide p != decide q) = decide ¬(p ↔ q) := by
    intro p q _ _
    by_cases p <;> by_cases q <;> simp [*]
  rw [hb, hb, ← Bool.decide_and, decide_eq_decide]
  split <;> split <;> omega

theorem complement_toNat (m : Byte) : (m ^^^ 0xFF).toNat = 255 - m.toNat := by
  revert m; decide +kernel

theorem complement_toInt (m : Byte) : (m ^^^ 0xFF).toInt = -1 - m.toInt := by
  have := m.isLt
  rw [byte_toInt, byte_toInt, complement_toNat]
  split <;> split <;> omega

/-- ADC over the naturals and the integers (R200). -/
theorem Cpu.adc_eq (m : Byte) (c : Cpu) : c.adc m = { c with
    a := BitVec.ofNat 8 (c.a.toNat + m.toNat + c.c.toNat)
    c := decide (256 ≤ c.a.toNat + m.toNat + c.c.toNat)
    v := decide (c.a.toInt + m.toInt + c.c.toNat < -128 ∨ 127 < c.a.toInt + m.toInt + c.c.toNat)
    z := BitVec.ofNat 8 (c.a.toNat + m.toNat + c.c.toNat) == 0
    n := (BitVec.ofNat 8 (c.a.toNat + m.toNat + c.c.toNat)).getLsbD 7 } := by
  rw [← overflow_eq]
  rfl

/-- SBC as a difference: C clear is a borrow (spec/42_arithmetic_logic.md R201). -/
theorem Cpu.sbc_eq (m : Byte) (c : Cpu) : c.sbc m = { c with
    a := BitVec.ofInt 8 ((c.a.toNat : Int) - m.toNat - (1 - c.c.toNat))
    c := decide (0 ≤ (c.a.toNat : Int) - m.toNat - (1 - c.c.toNat))
    v := decide (c.a.toInt - m.toInt - (1 - c.c.toNat) < -128 ∨ 127 < c.a.toInt - m.toInt - (1 - c.c.toNat))
    z := BitVec.ofInt 8 ((c.a.toNat : Int) - m.toNat - (1 - c.c.toNat)) == 0
    n := (BitVec.ofInt 8 ((c.a.toNat : Int) - m.toNat - (1 - c.c.toNat))).getLsbD 7 } := by
  have hm := m.isLt
  have hc : c.c.toNat ≤ 1 := Bool.toNat_le c.c
  have h1 : BitVec.ofNat 8 (c.a.toNat + (m ^^^ 0xFF).toNat + c.c.toNat) =
      BitVec.ofInt 8 ((c.a.toNat : Int) - m.toNat - (1 - c.c.toNat)) := by
    apply BitVec.eq_of_toNat_eq
    rw [BitVec.toNat_ofNat, BitVec.toNat_ofInt, complement_toNat]
    omega
  have h2 : decide (256 ≤ c.a.toNat + (m ^^^ 0xFF).toNat + c.c.toNat) =
      decide (0 ≤ (c.a.toNat : Int) - m.toNat - (1 - c.c.toNat)) := by
    rw [decide_eq_decide, complement_toNat]
    omega
  have h3 : c.a.toInt + (-1 - m.toInt) + c.c.toNat = c.a.toInt - m.toInt - (1 - c.c.toNat) := by omega
  unfold Cpu.sbc
  rw [Cpu.adc_eq, h1, h2, complement_toInt, h3]

/-! Shifts and rotates (spec/43_incdec_shift.md R226 to R229). -/

theorem aslByte_eq (x : Byte) : aslByte x = BitVec.ofNat 8 (2 * x.toNat) := by
  revert x; decide +kernel

theorem lsrByte_eq (x : Byte) : lsrByte x = BitVec.ofNat 8 (x.toNat / 2) := by
  revert x; decide +kernel

theorem rolByte_eq (c : Bool) (x : Byte) : rolByte c x = BitVec.ofNat 8 (2 * x.toNat + c.toNat) := by
  revert c x; decide +kernel

theorem rorByte_eq (c : Bool) (x : Byte) : rorByte c x = BitVec.ofNat 8 (x.toNat / 2 + 128 * c.toNat) := by
  revert c x; decide +kernel

theorem byte_getLsbD_zero (x : Byte) : x.getLsbD 0 = decide (x.toNat % 2 = 1) := by
  revert x; decide +kernel

end Sys2Proof.Machine
end

