-- ==== Sys2Proof/Laws/Memory.lean ====
section
/-! SUPPORT. The laws of the arrays: read after write, and that writing keeps the canonical form. -/

namespace Sys2Proof.Machine

theorem Mem.read_erase {w : Nat} (m : Mem w) (a b : Nat) :
    (Mem.erase m a).read b = if a = b then unlisted w else m.read b := by
  induction m with
  | nil => simp [Mem.erase, Mem.read]
  | cons e t ih =>
    obtain ⟨k, x⟩ := e
    by_cases hka : k = a
    · by_cases hab : a = b <;> simp_all [Mem.erase, Mem.read]
    · by_cases hkb : k = b
      · subst hkb
        simp [Mem.erase, Mem.read, hka, Ne.symm hka]
      · simp [Mem.erase, Mem.read, hka, hkb, ih]

theorem Mem.read_insertSorted {w : Nat} (m : Mem w) (a b : Nat) (v : BitVec w) :
    (Mem.insertSorted (Mem.erase m a) a v).read b = if a = b then v else m.read b := by
  induction m with
  | nil => simp [Mem.erase, Mem.insertSorted, Mem.read]
  | cons e t ih =>
    obtain ⟨k, x⟩ := e
    by_cases hka : k = a
    · subst hka
      simp only [Mem.erase, if_true, ih, Mem.read]
      split <;> rfl
    · simp only [Mem.erase, hka, if_false, Mem.insertSorted]
      by_cases hlt : k < a
      · simp only [hlt, if_true, Mem.read, ih]
        by_cases hkb : k = b
        · subst hkb; simp [Ne.symm hka]
        · simp [hkb]
      · simp only [hlt, if_false, Mem.read, Mem.read_erase]
        by_cases hab : a = b
        · simp [hab]
        · simp [hab]

/-- Reading after a write: the value written at its offset, the old value elsewhere. -/
theorem Mem.read_write {w : Nat} (m : Mem w) (a b : Nat) (v : BitVec w) :
    (m.write a v).read b = if a = b then v else m.read b := by
  unfold Mem.write
  by_cases hv : v = unlisted w
  · rw [if_pos hv, Mem.read_erase]
    split <;> simp_all
  · rw [if_neg hv, Mem.read_insertSorted m a b v]

theorem Mem.read_write_same {w : Nat} (m : Mem w) (a : Nat) (v : BitVec w) : (m.write a v).read a = v := by
  rw [Mem.read_write, if_pos rfl]

theorem Mem.read_write_other {w : Nat} (m : Mem w) {a b : Nat} (v : BitVec w) (h : a ≠ b) :
    (m.write a v).read b = m.read b := by
  rw [Mem.read_write, if_neg h]

theorem Mem.wf_cons {w : Nat} (k : Nat) (x : BitVec w) (t : Mem w) :
    Mem.wf ((k, x) :: t) = true ↔ x ≠ unlisted w ∧ (∀ e ∈ t, k < e.1) ∧ t.wf = true := by
  simp [Mem.wf, and_assoc]

theorem Mem.mem_erase {w : Nat} {m : Mem w} {a : Nat} {e : Nat × BitVec w} (h : e ∈ Mem.erase m a) :
    e ∈ m ∧ e.1 ≠ a := by
  induction m with
  | nil => simp [Mem.erase] at h
  | cons f t ih =>
    obtain ⟨k, x⟩ := f
    by_cases hka : k = a
    · simp only [Mem.erase, hka, if_true] at h
      exact ⟨List.mem_cons_of_mem _ (ih h).1, (ih h).2⟩
    · simp only [Mem.erase, hka, if_false, List.mem_cons] at h
      rcases h with rfl | h
      · exact ⟨List.mem_cons_self, hka⟩
      · exact ⟨List.mem_cons_of_mem _ (ih h).1, (ih h).2⟩

theorem Mem.wf_erase {w : Nat} (m : Mem w) (a : Nat) (h : m.wf = true) : (Mem.erase m a).wf = true := by
  induction m with
  | nil => rfl
  | cons f t ih =>
    obtain ⟨k, x⟩ := f
    rw [Mem.wf_cons] at h
    by_cases hka : k = a
    · simp only [Mem.erase, hka, if_true]
      exact ih h.2.2
    · simp only [Mem.erase, hka, if_false]
      rw [Mem.wf_cons]
      exact ⟨h.1, fun e he => h.2.1 e (Mem.mem_erase he).1, ih h.2.2⟩

theorem Mem.mem_insertSorted {w : Nat} {m : Mem w} {a : Nat} {v : BitVec w} {e : Nat × BitVec w}
    (h : e ∈ Mem.insertSorted m a v) : e = (a, v) ∨ e ∈ m := by
  induction m with
  | nil => simpa [Mem.insertSorted] using h
  | cons f t ih =>
    obtain ⟨k, x⟩ := f
    simp only [Mem.insertSorted] at h
    split at h
    · rcases List.mem_cons.mp h with rfl | h
      · exact Or.inr List.mem_cons_self
      · rcases ih h with rfl | h
        · exact Or.inl rfl
        · exact Or.inr (List.mem_cons_of_mem _ h)
    · exact List.mem_cons.mp h

theorem Mem.wf_insertSorted {w : Nat} (m : Mem w) (a : Nat) (v : BitVec w) (h : m.wf = true)
    (hm : ∀ e ∈ m, e.1 ≠ a) (hv : v ≠ unlisted w) : (Mem.insertSorted m a v).wf = true := by
  induction m with
  | nil => simp [Mem.insertSorted, Mem.wf, hv]
  | cons f t ih =>
    obtain ⟨k, x⟩ := f
    rw [Mem.wf_cons] at h
    simp only [Mem.insertSorted]
    split
    · rename_i hlt
      rw [Mem.wf_cons]
      refine ⟨h.1, fun e he => ?_, ih h.2.2 (fun e he => hm e (List.mem_cons_of_mem _ he))⟩
      rcases Mem.mem_insertSorted he with rfl | he
      · exact hlt
      · exact h.2.1 e he
    · rename_i hlt
      have hka : k ≠ a := hm (k, x) List.mem_cons_self
      rw [Mem.wf_cons, Mem.wf_cons]
      refine ⟨hv, fun e he => ?_, h⟩
      rcases List.mem_cons.mp he with rfl | he
      · exact Nat.lt_of_le_of_ne (Nat.le_of_not_lt hlt) (Ne.symm hka)
      · exact Nat.lt_trans (Nat.lt_of_le_of_ne (Nat.le_of_not_lt hlt) (Ne.symm hka)) (h.2.1 e he)

/-- Writing keeps the canonical form. -/
theorem Mem.wf_write {w : Nat} (m : Mem w) (a : Nat) (v : BitVec w) (h : m.wf = true) : (m.write a v).wf = true := by
  unfold Mem.write
  split
  · exact Mem.wf_erase m a h
  · exact Mem.wf_insertSorted _ a v (Mem.wf_erase m a h) (fun e he => (Mem.mem_erase he).2) ‹_›

end Sys2Proof.Machine
end

