-- ==== Sys2Proof/Laws/Devices.lean ====
section
/-! SUPPORT. What one dot, one APU tick and the end of a cycle can change. -/

namespace Sys2Proof.Machine

/-! A dot. -/

/-- The PPU state the pipelines of a dot do not write. -/
structure Ppu.SameRegs (p q : Ppu) : Prop where
  ctrl : q.ctrl = p.ctrl
  mask : q.mask = p.mask
  t : q.t = p.t
  x : q.x = p.x
  w : q.w = p.w
  pal : q.pal = p.pal
  oam : q.oam = p.oam
  wantVideo : q.wantVideo = p.wantVideo
  scanline : q.scanline = p.scanline
  dot : q.dot = p.dot
  oddFrame : q.oddFrame = p.oddFrame
  frameCount : q.frameCount = p.frameCount
  readBuffer : q.readBuffer = p.readBuffer
  ioLatch : q.ioLatch = p.ioLatch

theorem Ppu.SameRegs.refl (p : Ppu) : Ppu.SameRegs p p := ⟨rfl, rfl, rfl, rfl, rfl, rfl, rfl, rfl, rfl, rfl, rfl, rfl, rfl, rfl⟩

theorem Ppu.SameRegs.trans {p q r : Ppu} (h : Ppu.SameRegs p q) (k : Ppu.SameRegs q r) : Ppu.SameRegs p r :=
  ⟨k.ctrl.trans h.ctrl, k.mask.trans h.mask, k.t.trans h.t, k.x.trans h.x, k.w.trans h.w, k.pal.trans h.pal,
    k.oam.trans h.oam, k.wantVideo.trans h.wantVideo, k.scanline.trans h.scanline, k.dot.trans h.dot,
    k.oddFrame.trans h.oddFrame, k.frameCount.trans h.frameCount, k.readBuffer.trans h.readBuffer,
    k.ioLatch.trans h.ioLatch⟩

theorem evalSprites_sameRegs (line k : Nat) : ∀ n p, Ppu.SameRegs p (evalSprites line k n p) := by
  induction k with
  | zero => exact fun _ p => Ppu.SameRegs.refl p
  | succ k ih =>
    intro n p
    refine Ppu.SameRegs.trans ?_ (ih _ _)
    split
    · split
      · exact ⟨rfl, rfl, rfl, rfl, rfl, rfl, rfl, rfl, rfl, rfl, rfl, rfl, rfl, rfl⟩
      · exact ⟨rfl, rfl, rfl, rfl, rfl, rfl, rfl, rfl, rfl, rfl, rfl, rfl, rfl, rfl⟩
    · exact Ppu.SameRegs.refl p

theorem spriteFetch_sameRegs (rd : BitVec 14 → Byte) (line d : Nat) (p : Ppu) :
    Ppu.SameRegs p (spriteFetch rd line d p) := by
  unfold spriteFetch
  dsimp only
  split <;> exact ⟨rfl, rfl, rfl, rfl, rfl, rfl, rfl, rfl, rfl, rfl, rfl, rfl, rfl, rfl⟩

theorem spriteDot_sameRegs (rd : BitVec 14 → Byte) (line d : Nat) (p : Ppu) :
    Ppu.SameRegs p (spriteDot rd line d p) := by
  unfold spriteDot
  split
  · exact ⟨rfl, rfl, rfl, rfl, rfl, rfl, rfl, rfl, rfl, rfl, rfl, rfl, rfl, rfl⟩
  · split
    · exact evalSprites_sameRegs _ _ _ _
    · split
      · exact spriteFetch_sameRegs _ _ _ _
      · exact Ppu.SameRegs.refl p

theorem bgFetch_sameRegs (rd : BitVec 14 → Byte) (d : Nat) (p : Ppu) : Ppu.SameRegs p (bgFetch rd d p) := by
  unfold bgFetch
  dsimp only
  split <;> exact ⟨rfl, rfl, rfl, rfl, rfl, rfl, rfl, rfl, rfl, rfl, rfl, rfl, rfl, rfl⟩

theorem bgDot_sameRegs (rd : BitVec 14 → Byte) (rg : Region) (line d : Nat) (p : Ppu) :
    Ppu.SameRegs p (bgDot rd rg line d p) := by
  unfold bgDot
  split
  · exact bgFetch_sameRegs _ _ _
  · split
    · exact ⟨rfl, rfl, rfl, rfl, rfl, rfl, rfl, rfl, rfl, rfl, rfl, rfl, rfl, rfl⟩
    · split
      · exact ⟨rfl, rfl, rfl, rfl, rfl, rfl, rfl, rfl, rfl, rfl, rfl, rfl, rfl, rfl⟩
      · split
        · exact ⟨rfl, rfl, rfl, rfl, rfl, rfl, rfl, rfl, rfl, rfl, rfl, rfl, rfl, rfl⟩
        · exact Ppu.SameRegs.refl p

theorem pixelDot_sameRegs (line px : Nat) (p : Ppu) : Ppu.SameRegs p (pixelDot line px p) :=
  ⟨rfl, rfl, rfl, rfl, rfl, rfl, rfl, rfl, rfl, rfl, rfl, rfl, rfl, rfl⟩

/-- The first flag event of a dot: publication (spec/62_ppu.md R499). -/
theorem flagDot_sameRegs (rg : Region) (line d : Nat) (p : Ppu) : Ppu.SameRegs p (flagDot rg line d p) := by
  have h1 : ∀ (c : Prop) [Decidable c] (p : Ppu) (f : Option (Region × Mem 9)),
      Ppu.SameRegs p (if c then { p with fb := f } else p) := by
    intro c _ p f
    split
    · exact ⟨rfl, rfl, rfl, rfl, rfl, rfl, rfl, rfl, rfl, rfl, rfl, rfl, rfl, rfl⟩
    · exact Ppu.SameRegs.refl p
  have h2 : ∀ (c : Prop) [Decidable c] (p : Ppu) (a b : Bool),
      Ppu.SameRegs p (if c then { p with vblankFlag := a, vblSuppress := b } else p) := by
    intro c _ p a b
    split
    · exact ⟨rfl, rfl, rfl, rfl, rfl, rfl, rfl, rfl, rfl, rfl, rfl, rfl, rfl, rfl⟩
    · exact Ppu.SameRegs.refl p
  have h3 : ∀ (c : Prop) [Decidable c] (p : Ppu) (a b e : Bool),
      Ppu.SameRegs p (if c then { p with vblankFlag := a, sprite0Hit := b, spriteOverflow := e } else p) := by
    intro c _ p a b e
    split
    · exact ⟨rfl, rfl, rfl, rfl, rfl, rfl, rfl, rfl, rfl, rfl, rfl, rfl, rfl, rfl⟩
    · exact Ppu.SameRegs.refl p
  exact ((h1 _ p _).trans (h2 _ _ _ _)).trans (h3 _ _ _ _ _)

theorem ite_sameRegs (c : Prop) [Decidable c] (p q : Ppu) (h : Ppu.SameRegs p q) :
    Ppu.SameRegs p (if c then q else p) := by
  split
  · exact h
  · exact Ppu.SameRegs.refl p

theorem ppuDotWork_sameRegs (s : State) : Ppu.SameRegs s.ppu (ppuDotWork s) := by
  refine Ppu.SameRegs.trans ?_ (flagDot_sameRegs _ _ _ _)
  refine Ppu.SameRegs.trans ?_ (ite_sameRegs _ _ _ (bgDot_sameRegs _ _ _ _ _))
  refine Ppu.SameRegs.trans ?_ (ite_sameRegs _ _ _ (pixelDot_sameRegs _ _ _))
  refine Ppu.SameRegs.trans ?_ (ite_sameRegs _ _ _ (spriteDot_sameRegs _ _ _ _))
  split
  · exact Ppu.SameRegs.refl _
  · exact ⟨rfl, rfl, rfl, rfl, rfl, rfl, rfl, rfl, rfl, rfl, rfl, rfl, rfl, rfl⟩

/-- The vblank flag and its suppression, which of all the work of a dot only `flagDot` writes. -/
def Ppu.vblank (p : Ppu) : Bool × Bool := (p.vblankFlag, p.vblSuppress)

theorem evalSprites_vblank (line k : Nat) : ∀ n p, (evalSprites line k n p).vblank = p.vblank := by
  induction k with
  | zero => exact fun _ _ => rfl
  | succ k ih =>
    intro n p
    refine (ih _ _).trans ?_
    split
    · split <;> rfl
    · rfl

theorem spriteDot_vblank (rd : BitVec 14 → Byte) (line d : Nat) (p : Ppu) : (spriteDot rd line d p).vblank = p.vblank := by
  unfold spriteDot
  split
  · rfl
  · split
    · exact evalSprites_vblank _ _ _ _
    · split
      · unfold spriteFetch
        dsimp only
        split <;> rfl
      · rfl

theorem bgDot_vblank (rd : BitVec 14 → Byte) (rg : Region) (line d : Nat) (p : Ppu) :
    (bgDot rd rg line d p).vblank = p.vblank := by
  unfold bgDot
  split
  · unfold bgFetch
    dsimp only
    split <;> rfl
  · split
    · rfl
    · split
      · rfl
      · split <;> rfl

/-- The work of a dot ends with its flag events, on a PPU whose vblank flag is as the dot found it (spec/62_ppu.md R453). -/
theorem ppuDotWork_flagDot (s : State) : ∃ p : Ppu,
    ppuDotWork s = flagDot s.image.region s.ppu.scanline s.ppu.dot p ∧ p.vblank = s.ppu.vblank := by
  have ite : ∀ (c : Prop) [Decidable c] (p q : Ppu), q.vblank = p.vblank → (if c then q else p).vblank = p.vblank := by
    intro c _ p q h
    split
    · exact h
    · rfl
  refine ⟨_, rfl, ?_⟩
  refine (ite _ _ _ (bgDot_vblank _ _ _ _ _)).trans ((ite _ _ _ ?_).trans ((ite _ _ _ (spriteDot_vblank _ _ _ _)).trans ?_))
  · rfl
  · split <;> rfl

/-- The registers `advanceDot` does not write. -/
theorem advanceDot_regs (rg : Region) (p : Ppu) :
    (advanceDot rg p).ctrl = p.ctrl ∧ (advanceDot rg p).mask = p.mask ∧ (advanceDot rg p).t = p.t ∧
    (advanceDot rg p).x = p.x ∧ (advanceDot rg p).w = p.w ∧ (advanceDot rg p).pal = p.pal ∧
    (advanceDot rg p).oam = p.oam ∧ (advanceDot rg p).wantVideo = p.wantVideo ∧
    (advanceDot rg p).readBuffer = p.readBuffer ∧ (advanceDot rg p).ioLatch = p.ioLatch ∧
    (advanceDot rg p).fbWork = p.fbWork := by
  unfold advanceDot
  dsimp only
  split
  · split <;> exact ⟨rfl, rfl, rfl, rfl, rfl, rfl, rfl, rfl, rfl, rfl, rfl⟩
  · exact ⟨rfl, rfl, rfl, rfl, rfl, rfl, rfl, rfl, rfl, rfl, rfl⟩

/-- Where a dot leaves the PPU's position (spec/62_ppu.md R450, R451). -/
theorem advanceDot_position (rg : Region) (p : Ppu) (h : p.scanline ≤ rg.preLine ∧ p.dot ≤ 340) :
    (advanceDot rg p).scanline ≤ rg.preLine ∧ (advanceDot rg p).dot ≤ 340 := by
  unfold advanceDot
  dsimp only
  split
  · split
    · exact ⟨Nat.zero_le _, Nat.zero_le _⟩
    · exact ⟨Nat.lt_of_le_of_ne h.1 ‹_›, Nat.zero_le _⟩
  · rename_i hd
    have : p.dot ≠ 340 := fun he => hd (by simp [he])
    exact ⟨h.1, Nat.lt_of_le_of_ne h.2 this⟩

/-- No counter writes the vblank flag. -/
theorem advanceDot_vblank (rg : Region) (p : Ppu) : (advanceDot rg p).vblank = p.vblank := by
  unfold advanceDot
  dsimp only
  split
  · split <;> rfl
  · rfl

/-- Before the pre-render line a dot moves the PPU by one position (spec/62_ppu.md R450, R451). -/
theorem advanceDot_before_pre (rg : Region) (p : Ppu) (h : p.scanline ≠ rg.preLine) :
    341 * (advanceDot rg p).scanline + (advanceDot rg p).dot = 341 * p.scanline + p.dot + 1 := by
  unfold advanceDot
  dsimp only
  simp only [h, beq_false_of_ne h, Bool.false_and, Bool.or_false, decide_eq_true_eq, if_false]
  split <;> dsimp only <;> omega

theorem mapperDot_registers (variant : Mmc3Variant) (a : BitVec 14) (m : Mapper) :
    (mapperDot variant a m).registers = m.registers := by
  cases m with
  | mmc3 r =>
    unfold mapperDot
    dsimp only
    split
    · split <;> rfl
    · rfl
  | _ => rfl

/-- A dot writes the PPU, the mapper and the audio mark, and nothing else. -/
theorem runDot_eq (s : State) : runDot s =
    { s with ppu := (runDot s).ppu, mapper := (runDot s).mapper, audioMark := (runDot s).audioMark } := rfl

theorem runDot_ppu (s : State) : (runDot s).ppu = advanceDot s.image.region (ppuDotWork s) := rfl

theorem runDot_mapper (s : State) :
    (runDot s).mapper = mapperDot s.cfg.mmc3Variant (ppuDotWork s).abus s.mapper := rfl

theorem runDot_registers (s : State) : (runDot s).mapper.registers = s.mapper.registers := by
  rw [runDot_mapper, mapperDot_registers]

theorem runDot_pal (s : State) : (runDot s).ppu.pal = s.ppu.pal := by
  rw [runDot_ppu, (advanceDot_regs _ _).2.2.2.2.2.1, (ppuDotWork_sameRegs s).pal]

theorem runDot_oam (s : State) : (runDot s).ppu.oam = s.ppu.oam := by
  rw [runDot_ppu, (advanceDot_regs _ _).2.2.2.2.2.2.1, (ppuDotWork_sameRegs s).oam]

theorem runDot_ctrl (s : State) : (runDot s).ppu.ctrl = s.ppu.ctrl := by
  rw [runDot_ppu, (advanceDot_regs _ _).1, (ppuDotWork_sameRegs s).ctrl]

theorem runDot_mask (s : State) : (runDot s).ppu.mask = s.ppu.mask := by
  rw [runDot_ppu, (advanceDot_regs _ _).2.1, (ppuDotWork_sameRegs s).mask]

theorem runDot_t (s : State) : (runDot s).ppu.t = s.ppu.t := by
  rw [runDot_ppu, (advanceDot_regs _ _).2.2.1, (ppuDotWork_sameRegs s).t]

theorem runDot_x (s : State) : (runDot s).ppu.x = s.ppu.x := by
  rw [runDot_ppu, (advanceDot_regs _ _).2.2.2.1, (ppuDotWork_sameRegs s).x]

theorem runDot_wantVideo (s : State) : (runDot s).ppu.wantVideo = s.ppu.wantVideo := by
  rw [runDot_ppu, (advanceDot_regs _ _).2.2.2.2.2.2.2.1, (ppuDotWork_sameRegs s).wantVideo]

/-! A tick of the APU. -/

/-- The APU state the passing of time does not write. -/
structure Apu.SameWritten (a b : Apu) : Prop where
  pulse1 : b.pulse1.written = a.pulse1.written
  pulse2 : b.pulse2.written = a.pulse2.written
  triangle : b.triangle.written = a.triangle.written
  noise : b.noise.written = a.noise.written
  dmc : b.dmc.written = a.dmc.written
  fcMode : b.fcMode = a.fcMode
  fcInhibit : b.fcInhibit = a.fcInhibit

theorem Apu.SameWritten.refl (a : Apu) : Apu.SameWritten a a := ⟨rfl, rfl, rfl, rfl, rfl, rfl, rfl⟩

theorem Apu.SameWritten.trans {a b c : Apu} (h : Apu.SameWritten a b) (k : Apu.SameWritten b c) :
    Apu.SameWritten a c :=
  ⟨k.pulse1.trans h.pulse1, k.pulse2.trans h.pulse2, k.triangle.trans h.triangle, k.noise.trans h.noise,
    k.dmc.trans h.dmc, k.fcMode.trans h.fcMode, k.fcInhibit.trans h.fcInhibit⟩

theorem Envelope.clock_fields (e : Envelope) :
    e.clock.halt = e.halt ∧ e.clock.const = e.const ∧ e.clock.vol = e.vol := by
  unfold Envelope.clock
  split
  · exact ⟨rfl, rfl, rfl⟩
  · split <;> exact ⟨rfl, rfl, rfl⟩

theorem Pulse.half_written (first : Bool) (p : Pulse) : (p.half first).written = p.written := by
  unfold Pulse.half Pulse.sweep
  dsimp only
  split <;> rfl

theorem Apu.quarter_sameWritten (a : Apu) : Apu.SameWritten a a.quarter := by
  refine ⟨?_, ?_, rfl, ?_, rfl, rfl, rfl⟩
  · have h := a.pulse1.env.clock_fields
    simp [Apu.quarter, Pulse.written, h.1, h.2.1, h.2.2]
  · have h := a.pulse2.env.clock_fields
    simp [Apu.quarter, Pulse.written, h.1, h.2.1, h.2.2]
  · have h := a.noise.env.clock_fields
    simp [Apu.quarter, Noise.written, h.1, h.2.1, h.2.2]

theorem Apu.half_sameWritten (a : Apu) : Apu.SameWritten a a.half :=
  ⟨Pulse.half_written _ _, Pulse.half_written _ _, rfl, rfl, rfl, rfl, rfl⟩

theorem Apu.sameWritten_of_counters (a : Apu) (fc d : Nat) (q : Bool) :
    Apu.SameWritten a { a with fc := fc, fcResetDelay := d, frameIrq := q } := ⟨rfl, rfl, rfl, rfl, rfl, rfl, rfl⟩

theorem Apu.raiseFrameIrq_sameWritten (a : Apu) : Apu.SameWritten a a.raiseFrameIrq := by
  unfold Apu.raiseFrameIrq
  split
  · exact Apu.SameWritten.refl a
  · exact ⟨rfl, rfl, rfl, rfl, rfl, rfl, rfl⟩

theorem Apu.delayedReset_sameWritten (a : Apu) : Apu.SameWritten a a.delayedReset := by
  unfold Apu.delayedReset
  split
  · exact Apu.SameWritten.refl a
  · dsimp only
    split
    · split
      · exact Apu.SameWritten.trans (b := { a with fc := 0, fcResetDelay := a.fcResetDelay - 1 })
          ⟨rfl, rfl, rfl, rfl, rfl, rfl, rfl⟩ ((Apu.quarter_sameWritten _).trans (Apu.half_sameWritten _))
      · exact ⟨rfl, rfl, rfl, rfl, rfl, rfl, rfl⟩
    · exact ⟨rfl, rfl, rfl, rfl, rfl, rfl, rfl⟩

theorem Apu.frameStep_sameWritten (rg : Region) (a : Apu) : Apu.SameWritten a (a.frameStep rg) := by
  have h0 : Apu.SameWritten a { a with fc := a.fc + 1 } := ⟨rfl, rfl, rfl, rfl, rfl, rfl, rfl⟩
  have hqh : ∀ b : Apu, Apu.SameWritten b b.quarter.half :=
    fun b => (Apu.quarter_sameWritten b).trans (Apu.half_sameWritten _)
  unfold Apu.frameStep
  dsimp only
  refine h0.trans ?_
  split
  · exact Apu.quarter_sameWritten _
  · split
    · exact hqh _
    · split
      · split
        · exact hqh _
        · split
          · exact ⟨rfl, rfl, rfl, rfl, rfl, rfl, rfl⟩
          · exact Apu.SameWritten.refl _
      · split
        · exact Apu.raiseFrameIrq_sameWritten _
        · split
          · exact (hqh _).trans (Apu.raiseFrameIrq_sameWritten _)
          · split
            · exact (Apu.raiseFrameIrq_sameWritten _).trans ⟨rfl, rfl, rfl, rfl, rfl, rfl, rfl⟩
            · exact Apu.SameWritten.refl _

theorem Apu.tickFrame_sameWritten (rg : Region) (a : Apu) : Apu.SameWritten a (a.tickFrame rg) :=
  (Apu.delayedReset_sameWritten a).trans (Apu.frameStep_sameWritten rg _)

theorem Pulse.tick_written (p : Pulse) : p.tick.written = p.written := by
  unfold Pulse.tick
  split <;> rfl

theorem Triangle.tick_written (t : Triangle) : t.tick.written = t.written := by
  unfold Triangle.tick
  split <;> rfl

theorem Noise.tick_written (rg : Region) (n : Noise) : (n.tick rg).written = n.written := by
  unfold Noise.tick
  split <;> rfl

theorem Dmc.output_written (d : Dmc) : d.output.written = d.written := by
  unfold Dmc.output
  dsimp only
  split
  · split <;> rfl
  · rfl

theorem Dmc.tick_written (rg : Region) (d : Dmc) : (d.tick rg).written = d.written := by
  unfold Dmc.tick
  split
  · exact Dmc.output_written d
  · rfl

theorem Dmc.take_written (b : Byte) (d : Dmc) : (d.take b).1.written = d.written := by
  unfold Dmc.take
  dsimp only
  split
  · split <;> rfl
  · rfl

theorem Apu.tickTimers_sameWritten (rg : Region) (cyc : Nat) (a : Apu) :
    Apu.SameWritten a (a.tickTimers rg cyc) := by
  unfold Apu.tickTimers
  dsimp only
  split
  · exact ⟨Pulse.tick_written _, Pulse.tick_written _, Triangle.tick_written _, Noise.tick_written _ _,
      Dmc.tick_written _ _, rfl, rfl⟩
  · exact ⟨rfl, rfl, Triangle.tick_written _, Noise.tick_written _ _, Dmc.tick_written _ _, rfl, rfl⟩

theorem Apu.sample_sameWritten (rg : Region) (cfg : Params) (a : Apu) : Apu.SameWritten a (a.sample rg cfg) := by
  unfold Apu.sample
  dsimp only
  split <;> exact ⟨rfl, rfl, rfl, rfl, rfl, rfl, rfl⟩

/-- The DMC memory reader writes the APU, `DB` and the stall count, and nothing else. -/
theorem dmcFetch_eq (s : State) : dmcFetch s =
    { s with
      apu := (dmcFetch s).apu
      bus := { s.bus with db := (dmcFetch s).bus.db, stall := (dmcFetch s).bus.stall } } := by
  unfold dmcFetch
  split <;> rfl

theorem dmcFetch_sameWritten (s : State) : Apu.SameWritten s.apu (dmcFetch s).apu := by
  unfold dmcFetch
  split
  · exact ⟨rfl, rfl, rfl, rfl, Dmc.take_written _ _, rfl, rfl⟩
  · exact Apu.SameWritten.refl _

/-- A tick writes the APU, `DB` and the stall count, and nothing else. -/
theorem apuTick_eq (s : State) : apuTick s =
    { s with
      apu := (apuTick s).apu
      bus := { s.bus with db := (apuTick s).bus.db, stall := (apuTick s).bus.stall } } := by
  unfold apuTick
  dsimp only
  rw [dmcFetch_eq]

theorem apuTick_sameWritten (s : State) : Apu.SameWritten s.apu (apuTick s).apu := by
  unfold apuTick
  dsimp only
  refine Apu.SameWritten.trans ?_ (Apu.sample_sameWritten _ _ _)
  refine Apu.SameWritten.trans ?_ (Apu.tickTimers_sameWritten _ _ _)
  exact (Apu.tickFrame_sameWritten _ _).trans (dmcFetch_sameWritten { s with apu := s.apu.tickFrame s.image.region })

end Sys2Proof.Machine
end

