-- ==== Sys2Proof/Laws/ExecView.lean ====
section
/-! SUPPORT. `exec` by mnemonic: 78 cases over the shared operations in place of 256 arms. -/

namespace Sys2Proof.Machine

/-- `f` of the operand source of a form that has one. -/
def onSrc (f : Src → State) : Form → Host.Outcome State Fault Refusal
  | .src x => .next (f x)
  | _ => .refused .undecodable

/-- `f` of the memory operand of a form that has one. -/
def onMem (f : MemOperand → State) : Form → Host.Outcome State Fault Refusal
  | .src (.mem m) => .next (f m)
  | _ => .refused .undecodable

/-- `g` for the accumulator form, `f` of the memory operand otherwise. -/
def onMemAcc (f : MemOperand → State) (g : State) : Form → Host.Outcome State Fault Refusal
  | .src (.mem m) => .next (f m)
  | .acc => .next g
  | _ => .refused .undecodable

/-- `f` of the offset of the relative form. -/
def onRel (f : Byte → State) : Form → Host.Outcome State Fault Refusal
  | .rel o => .next (f o)
  | _ => .refused .undecodable

/-- `f` of the two bytes of the absolute form, `g` of those of the indirect form. -/
def onJump (f g : Byte → Byte → State) : Form → Host.Outcome State Fault Refusal
  | .src (.mem (.abs l h)) => .next (f l h)
  | .ind l h => .next (g l h)
  | _ => .refused .undecodable

/-- `f` of base and index of the address-high-byte stores: absolute,X, absolute,Y, or (indirect),Y after its pointer. -/
def onHigh (f : Addr → Byte → State → State) (s : State) : Form → Host.Outcome State Fault Refusal
  | .src (.mem (.abx l h)) => .next (f (word h l) s.cpu.x s)
  | .src (.mem (.aby l h)) => .next (f (word h l) s.cpu.y s)
  | .src (.mem (.izy z)) => .next (f (zpPointer z s).1 s.cpu.y (zpPointer z s).2)
  | _ => .refused .undecodable

/-- The meaning of an instruction as a function of its mnemonic and its form. -/
def execView (i : Instr) (s : State) : Host.Outcome State Fault Refusal :=
  match i.mnem with
  | .lda => onSrc (fun x => readOperand Cpu.loadA x s) i.form
  | .ldx => onSrc (fun x => readOperand Cpu.loadX x s) i.form
  | .ldy => onSrc (fun x => readOperand Cpu.loadY x s) i.form
  | .adc => onSrc (fun x => readOperand Cpu.adc x s) i.form
  | .sbc => onSrc (fun x => readOperand Cpu.sbc x s) i.form
  | .and => onSrc (fun x => readOperand Cpu.and x s) i.form
  | .ora => onSrc (fun x => readOperand Cpu.ora x s) i.form
  | .eor => onSrc (fun x => readOperand Cpu.eor x s) i.form
  | .cmp => onSrc (fun x => readOperand (fun m c => c.compare c.a m) x s) i.form
  | .cpx => onSrc (fun x => readOperand (fun m c => c.compare c.x m) x s) i.form
  | .cpy => onSrc (fun x => readOperand (fun m c => c.compare c.y m) x s) i.form
  | .bit => onSrc (fun x => readOperand Cpu.bit x s) i.form
  | .lax => unofficial i (fun s => onSrc (fun x => readOperand Cpu.lax x s) i.form) s
  | .las => unofficial i (fun s => onSrc (fun x => readOperand Cpu.las x s) i.form) s
  | .anc => unofficial i (fun s => onSrc (fun x => readOperand Cpu.anc x s) i.form) s
  | .alr => unofficial i (fun s => onSrc (fun x => readOperand Cpu.alr x s) i.form) s
  | .arr => unofficial i (fun s => onSrc (fun x => readOperand Cpu.arr x s) i.form) s
  | .axs => unofficial i (fun s => onSrc (fun x => readOperand Cpu.axs x s) i.form) s
  | .sta => onMem (fun m => storeOperand Cpu.a m s) i.form
  | .stx => onMem (fun m => storeOperand Cpu.x m s) i.form
  | .sty => onMem (fun m => storeOperand Cpu.y m s) i.form
  | .sax => unofficial i (fun s => onMem (fun m => storeOperand (fun c => c.a &&& c.x) m s) i.form) s
  | .asl => onMemAcc (fun m => modifyOperand Cpu.asl m s) (modifyAcc Cpu.asl s) i.form
  | .lsr => onMemAcc (fun m => modifyOperand Cpu.lsr m s) (modifyAcc Cpu.lsr s) i.form
  | .rol => onMemAcc (fun m => modifyOperand Cpu.rol m s) (modifyAcc Cpu.rol s) i.form
  | .ror => onMemAcc (fun m => modifyOperand Cpu.ror m s) (modifyAcc Cpu.ror s) i.form
  | .inc => onMem (fun m => modifyOperand Cpu.inc m s) i.form
  | .dec => onMem (fun m => modifyOperand Cpu.dec m s) i.form
  | .slo => unofficial i (fun s => onMem (fun m => modifyOperand Cpu.slo m s) i.form) s
  | .rla => unofficial i (fun s => onMem (fun m => modifyOperand Cpu.rla m s) i.form) s
  | .sre => unofficial i (fun s => onMem (fun m => modifyOperand Cpu.sre m s) i.form) s
  | .rra => unofficial i (fun s => onMem (fun m => modifyOperand Cpu.rra m s) i.form) s
  | .dcp => unofficial i (fun s => onMem (fun m => modifyOperand Cpu.dcp m s) i.form) s
  | .isc => unofficial i (fun s => onMem (fun m => modifyOperand Cpu.isc m s) i.form) s
  | .tax => .next (implied (fun c => c.loadX c.a) s)
  | .tay => .next (implied (fun c => c.loadY c.a) s)
  | .txa => .next (implied (fun c => c.loadA c.x) s)
  | .tya => .next (implied (fun c => c.loadA c.y) s)
  | .tsx => .next (implied (fun c => c.loadX c.s) s)
  | .txs => .next (implied (fun c => { c with s := c.x }) s)
  | .inx => .next (implied (fun c => c.loadX (c.x + 1)) s)
  | .iny => .next (implied (fun c => c.loadY (c.y + 1)) s)
  | .dex => .next (implied (fun c => c.loadX (c.x - 1)) s)
  | .dey => .next (implied (fun c => c.loadY (c.y - 1)) s)
  | .clc => .next (implied (fun c => { c with c := false }) s)
  | .sec => .next (implied (fun c => { c with c := true }) s)
  | .cli => .next (implied (fun c => { c with i := false }) s)
  | .sei => .next (implied (fun c => { c with i := true }) s)
  | .cld => .next (implied (fun c => { c with d := false }) s)
  | .sed => .next (implied (fun c => { c with d := true }) s)
  | .clv => .next (implied (fun c => { c with v := false }) s)
  | .nop => .next (implied (id) s)
  | .bcc => onRel (fun o => branch (!s.cpu.c) o s) i.form
  | .bcs => onRel (fun o => branch (s.cpu.c) o s) i.form
  | .beq => onRel (fun o => branch (s.cpu.z) o s) i.form
  | .bne => onRel (fun o => branch (!s.cpu.z) o s) i.form
  | .bmi => onRel (fun o => branch (s.cpu.n) o s) i.form
  | .bpl => onRel (fun o => branch (!s.cpu.n) o s) i.form
  | .bvc => onRel (fun o => branch (!s.cpu.v) o s) i.form
  | .bvs => onRel (fun o => branch (s.cpu.v) o s) i.form
  | .pha => opPha s
  | .php => opPhp s
  | .pla => opPla s
  | .plp => opPlp s
  | .jmp => onJump (fun l h => s.setPc (word h l)) (fun l h => (readWord (word h l) (word h (l + 1)) s).2.setPc (readWord (word h l) (word h (l + 1)) s).1) i.form
  | .jsr => match i.form with
    | .src (.mem (.abs l _)) => opJsr l s
    | _ => .refused .undecodable
  | .rts => opRts s
  | .brk => .next (takeException 0xFFFE true (fetch s).2)
  | .rti => .next (returnFromException (dummyStack (dummyRead s.cpu.pc s)))
  | .sbcU => unofficial i (fun s => onSrc (fun x => readOperand Cpu.sbc x s) i.form) s
  | .xaa => unofficial i (fun s => onSrc (fun x => readOperand (Cpu.xaa s.cfg.magicXaa) x s) i.form) s
  | .lxa => unofficial i (fun s => onSrc (fun x => readOperand (Cpu.lxa s.cfg.magicLxa) x s) i.form) s
  | .sha => unofficial i (fun s => onHigh (storeHigh (s.cpu.a &&& s.cpu.x)) s i.form) s
  | .shy => unofficial i (fun s => onHigh (storeHigh s.cpu.y) s i.form) s
  | .shx => unofficial i (fun s => onHigh (storeHigh s.cpu.x) s i.form) s
  | .tas => unofficial i (fun s => onHigh (fun b j s => storeHigh (s.cpu.a &&& s.cpu.x) b j (s.setS (s.cpu.a &&& s.cpu.x))) s i.form) s
  | .nopU => unofficial i (fun s => .next (nopAccesses i.form s)) s
  | .jam => opJam i.opcode s

/-- `exec` is its view. -/
theorem exec_eq_view (i : Instr) (s : State) : exec i s = execView i s := by
  cases i <;> rfl

variable {t : State}

theorem onSrc_next {f : Src → State} {g : Form} (h : onSrc f g = .next t) : ∃ x, g = .src x ∧ f x = t := by
  cases g <;> first | exact ⟨_, rfl, Host.Outcome.next.inj h⟩ | cases h

theorem onMem_next {f : MemOperand → State} {g : Form} (h : onMem f g = .next t) :
    ∃ m, g = .src (.mem m) ∧ f m = t := by
  cases g with
  | src x => cases x <;> first | exact ⟨_, rfl, Host.Outcome.next.inj h⟩ | cases h
  | _ => cases h

theorem onMemAcc_next {f : MemOperand → State} {a : State} {g : Form} (h : onMemAcc f a g = .next t) :
    (∃ m, g = .src (.mem m) ∧ f m = t) ∨ (g = .acc ∧ a = t) := by
  cases g with
  | src x => cases x <;> first | exact Or.inl ⟨_, rfl, Host.Outcome.next.inj h⟩ | cases h
  | acc => exact Or.inr ⟨rfl, Host.Outcome.next.inj h⟩
  | _ => cases h

theorem onRel_next {f : Byte → State} {g : Form} (h : onRel f g = .next t) : ∃ o, g = .rel o ∧ f o = t := by
  cases g <;> first | exact ⟨_, rfl, Host.Outcome.next.inj h⟩ | cases h

theorem onJump_next {f k : Byte → Byte → State} {g : Form} (h : onJump f k g = .next t) :
    (∃ l u, g = .src (.mem (.abs l u)) ∧ f l u = t) ∨ (∃ l u, g = .ind l u ∧ k l u = t) := by
  cases g with
  | src x =>
    cases x with
    | imm => cases h
    | mem m => cases m <;> first | exact Or.inl ⟨_, _, rfl, Host.Outcome.next.inj h⟩ | cases h
  | ind => exact Or.inr ⟨_, _, rfl, Host.Outcome.next.inj h⟩
  | _ => cases h

theorem onHigh_next {f : Addr → Byte → State → State} {s : State} {g : Form} (h : onHigh f s g = .next t) :
    (∃ l u, g = .src (.mem (.abx l u)) ∧ f (word u l) s.cpu.x s = t) ∨
    (∃ l u, g = .src (.mem (.aby l u)) ∧ f (word u l) s.cpu.y s = t) ∨
    (∃ z, g = .src (.mem (.izy z)) ∧ f (zpPointer z s).1 s.cpu.y (zpPointer z s).2 = t) := by
  cases g with
  | src x =>
    cases x with
    | imm => cases h
    | mem m =>
      cases m <;> first
        | exact Or.inl ⟨_, _, rfl, Host.Outcome.next.inj h⟩
        | exact Or.inr (Or.inl ⟨_, _, rfl, Host.Outcome.next.inj h⟩)
        | exact Or.inr (Or.inr ⟨_, rfl, Host.Outcome.next.inj h⟩)
        | cases h
  | _ => cases h

theorem unofficial_next {i : Instr} {doc : State → Host.Outcome State Fault Refusal} {s : State}
    (h : unofficial i doc s = .next t) :
    (s.cfg.unofficial = .documented ∧ doc s = .next t) ∨
    (s.cfg.unofficial = .nop ∧
      (nopAccesses i.form s).log (illegalOpcode i.opcode (instrLength i.opcode) s.cpu.pc) = t) := by
  unfold unofficial at h
  split at h
  · exact Or.inl ⟨‹_›, h⟩
  · exact Or.inr ⟨‹_›, Host.Outcome.next.inj h⟩

end Sys2Proof.Machine
end

