-- ==== Sys2Proof/Laws/State.lean ====
section
/-! SUPPORT. One lemma per field per named update of the state, true by rfl. -/

namespace Sys2Proof.Machine

@[simp] theorem State.setPc_cpu (v : Addr) (s : State) : (s.setPc v).cpu = { s.cpu with pc := v } := rfl
@[simp] theorem State.setPc_cfg (v : Addr) (s : State) : (s.setPc v).cfg = s.cfg := rfl
@[simp] theorem State.setPc_image (v : Addr) (s : State) : (s.setPc v).image = s.image := rfl
@[simp] theorem State.setPc_bus (v : Addr) (s : State) : (s.setPc v).bus = s.bus := rfl
@[simp] theorem State.setPc_ram (v : Addr) (s : State) : (s.setPc v).ram = s.ram := rfl
@[simp] theorem State.setPc_prgRam (v : Addr) (s : State) : (s.setPc v).prgRam = s.prgRam := rfl
@[simp] theorem State.setPc_chrRam (v : Addr) (s : State) : (s.setPc v).chrRam = s.chrRam := rfl
@[simp] theorem State.setPc_ciram (v : Addr) (s : State) : (s.setPc v).ciram = s.ciram := rfl
@[simp] theorem State.setPc_mapper (v : Addr) (s : State) : (s.setPc v).mapper = s.mapper := rfl
@[simp] theorem State.setPc_ppu (v : Addr) (s : State) : (s.setPc v).ppu = s.ppu := rfl
@[simp] theorem State.setPc_apu (v : Addr) (s : State) : (s.setPc v).apu = s.apu := rfl
@[simp] theorem State.setPc_input (v : Addr) (s : State) : (s.setPc v).input = s.input := rfl
@[simp] theorem State.setPc_power (v : Addr) (s : State) : (s.setPc v).power = s.power := rfl
@[simp] theorem State.setPc_audioMark (v : Addr) (s : State) : (s.setPc v).audioMark = s.audioMark := rfl
@[simp] theorem State.setPc_jamSeen (v : Addr) (s : State) : (s.setPc v).jamSeen = s.jamSeen := rfl
@[simp] theorem State.setPc_hung (v : Addr) (s : State) : (s.setPc v).hung = s.hung := rfl
@[simp] theorem State.setPc_diag (v : Addr) (s : State) : (s.setPc v).diag = s.diag := rfl
@[simp] theorem State.setPc_backups (v : Addr) (s : State) : (s.setPc v).backups = s.backups := rfl

@[simp] theorem State.setS_cpu (v : Byte) (s : State) : (s.setS v).cpu = { s.cpu with s := v } := rfl
@[simp] theorem State.setS_cfg (v : Byte) (s : State) : (s.setS v).cfg = s.cfg := rfl
@[simp] theorem State.setS_image (v : Byte) (s : State) : (s.setS v).image = s.image := rfl
@[simp] theorem State.setS_bus (v : Byte) (s : State) : (s.setS v).bus = s.bus := rfl
@[simp] theorem State.setS_ram (v : Byte) (s : State) : (s.setS v).ram = s.ram := rfl
@[simp] theorem State.setS_prgRam (v : Byte) (s : State) : (s.setS v).prgRam = s.prgRam := rfl
@[simp] theorem State.setS_chrRam (v : Byte) (s : State) : (s.setS v).chrRam = s.chrRam := rfl
@[simp] theorem State.setS_ciram (v : Byte) (s : State) : (s.setS v).ciram = s.ciram := rfl
@[simp] theorem State.setS_mapper (v : Byte) (s : State) : (s.setS v).mapper = s.mapper := rfl
@[simp] theorem State.setS_ppu (v : Byte) (s : State) : (s.setS v).ppu = s.ppu := rfl
@[simp] theorem State.setS_apu (v : Byte) (s : State) : (s.setS v).apu = s.apu := rfl
@[simp] theorem State.setS_input (v : Byte) (s : State) : (s.setS v).input = s.input := rfl
@[simp] theorem State.setS_power (v : Byte) (s : State) : (s.setS v).power = s.power := rfl
@[simp] theorem State.setS_audioMark (v : Byte) (s : State) : (s.setS v).audioMark = s.audioMark := rfl
@[simp] theorem State.setS_jamSeen (v : Byte) (s : State) : (s.setS v).jamSeen = s.jamSeen := rfl
@[simp] theorem State.setS_hung (v : Byte) (s : State) : (s.setS v).hung = s.hung := rfl
@[simp] theorem State.setS_diag (v : Byte) (s : State) : (s.setS v).diag = s.diag := rfl
@[simp] theorem State.setS_backups (v : Byte) (s : State) : (s.setS v).backups = s.backups := rfl

@[simp] theorem State.setI_cpu (v : Bool) (s : State) : (s.setI v).cpu = { s.cpu with i := v } := rfl
@[simp] theorem State.setI_cfg (v : Bool) (s : State) : (s.setI v).cfg = s.cfg := rfl
@[simp] theorem State.setI_image (v : Bool) (s : State) : (s.setI v).image = s.image := rfl
@[simp] theorem State.setI_bus (v : Bool) (s : State) : (s.setI v).bus = s.bus := rfl
@[simp] theorem State.setI_ram (v : Bool) (s : State) : (s.setI v).ram = s.ram := rfl
@[simp] theorem State.setI_prgRam (v : Bool) (s : State) : (s.setI v).prgRam = s.prgRam := rfl
@[simp] theorem State.setI_chrRam (v : Bool) (s : State) : (s.setI v).chrRam = s.chrRam := rfl
@[simp] theorem State.setI_ciram (v : Bool) (s : State) : (s.setI v).ciram = s.ciram := rfl
@[simp] theorem State.setI_mapper (v : Bool) (s : State) : (s.setI v).mapper = s.mapper := rfl
@[simp] theorem State.setI_ppu (v : Bool) (s : State) : (s.setI v).ppu = s.ppu := rfl
@[simp] theorem State.setI_apu (v : Bool) (s : State) : (s.setI v).apu = s.apu := rfl
@[simp] theorem State.setI_input (v : Bool) (s : State) : (s.setI v).input = s.input := rfl
@[simp] theorem State.setI_power (v : Bool) (s : State) : (s.setI v).power = s.power := rfl
@[simp] theorem State.setI_audioMark (v : Bool) (s : State) : (s.setI v).audioMark = s.audioMark := rfl
@[simp] theorem State.setI_jamSeen (v : Bool) (s : State) : (s.setI v).jamSeen = s.jamSeen := rfl
@[simp] theorem State.setI_hung (v : Bool) (s : State) : (s.setI v).hung = s.hung := rfl
@[simp] theorem State.setI_diag (v : Bool) (s : State) : (s.setI v).diag = s.diag := rfl
@[simp] theorem State.setI_backups (v : Bool) (s : State) : (s.setI v).backups = s.backups := rfl

@[simp] theorem State.mapCpu_cpu (f : Cpu → Cpu) (s : State) : (s.mapCpu f).cpu = f s.cpu := rfl
@[simp] theorem State.mapCpu_cfg (f : Cpu → Cpu) (s : State) : (s.mapCpu f).cfg = s.cfg := rfl
@[simp] theorem State.mapCpu_image (f : Cpu → Cpu) (s : State) : (s.mapCpu f).image = s.image := rfl
@[simp] theorem State.mapCpu_bus (f : Cpu → Cpu) (s : State) : (s.mapCpu f).bus = s.bus := rfl
@[simp] theorem State.mapCpu_ram (f : Cpu → Cpu) (s : State) : (s.mapCpu f).ram = s.ram := rfl
@[simp] theorem State.mapCpu_prgRam (f : Cpu → Cpu) (s : State) : (s.mapCpu f).prgRam = s.prgRam := rfl
@[simp] theorem State.mapCpu_chrRam (f : Cpu → Cpu) (s : State) : (s.mapCpu f).chrRam = s.chrRam := rfl
@[simp] theorem State.mapCpu_ciram (f : Cpu → Cpu) (s : State) : (s.mapCpu f).ciram = s.ciram := rfl
@[simp] theorem State.mapCpu_mapper (f : Cpu → Cpu) (s : State) : (s.mapCpu f).mapper = s.mapper := rfl
@[simp] theorem State.mapCpu_ppu (f : Cpu → Cpu) (s : State) : (s.mapCpu f).ppu = s.ppu := rfl
@[simp] theorem State.mapCpu_apu (f : Cpu → Cpu) (s : State) : (s.mapCpu f).apu = s.apu := rfl
@[simp] theorem State.mapCpu_input (f : Cpu → Cpu) (s : State) : (s.mapCpu f).input = s.input := rfl
@[simp] theorem State.mapCpu_power (f : Cpu → Cpu) (s : State) : (s.mapCpu f).power = s.power := rfl
@[simp] theorem State.mapCpu_audioMark (f : Cpu → Cpu) (s : State) : (s.mapCpu f).audioMark = s.audioMark := rfl
@[simp] theorem State.mapCpu_jamSeen (f : Cpu → Cpu) (s : State) : (s.mapCpu f).jamSeen = s.jamSeen := rfl
@[simp] theorem State.mapCpu_hung (f : Cpu → Cpu) (s : State) : (s.mapCpu f).hung = s.hung := rfl
@[simp] theorem State.mapCpu_diag (f : Cpu → Cpu) (s : State) : (s.mapCpu f).diag = s.diag := rfl
@[simp] theorem State.mapCpu_backups (f : Cpu → Cpu) (s : State) : (s.mapCpu f).backups = s.backups := rfl

@[simp] theorem State.log_diag (d : Diagnostic) (s : State) : (s.log d).diag = s.diag ++ [d] := rfl
@[simp] theorem State.log_backups (d : Diagnostic) (s : State) : (s.log d).backups = s.backups := rfl
@[simp] theorem State.log_cpu (d : Diagnostic) (s : State) : (s.log d).cpu = s.cpu := rfl
@[simp] theorem State.log_cfg (d : Diagnostic) (s : State) : (s.log d).cfg = s.cfg := rfl
@[simp] theorem State.log_image (d : Diagnostic) (s : State) : (s.log d).image = s.image := rfl
@[simp] theorem State.log_bus (d : Diagnostic) (s : State) : (s.log d).bus = s.bus := rfl
@[simp] theorem State.log_ram (d : Diagnostic) (s : State) : (s.log d).ram = s.ram := rfl
@[simp] theorem State.log_prgRam (d : Diagnostic) (s : State) : (s.log d).prgRam = s.prgRam := rfl
@[simp] theorem State.log_chrRam (d : Diagnostic) (s : State) : (s.log d).chrRam = s.chrRam := rfl
@[simp] theorem State.log_ciram (d : Diagnostic) (s : State) : (s.log d).ciram = s.ciram := rfl
@[simp] theorem State.log_mapper (d : Diagnostic) (s : State) : (s.log d).mapper = s.mapper := rfl
@[simp] theorem State.log_ppu (d : Diagnostic) (s : State) : (s.log d).ppu = s.ppu := rfl
@[simp] theorem State.log_apu (d : Diagnostic) (s : State) : (s.log d).apu = s.apu := rfl
@[simp] theorem State.log_input (d : Diagnostic) (s : State) : (s.log d).input = s.input := rfl
@[simp] theorem State.log_power (d : Diagnostic) (s : State) : (s.log d).power = s.power := rfl
@[simp] theorem State.log_audioMark (d : Diagnostic) (s : State) : (s.log d).audioMark = s.audioMark := rfl
@[simp] theorem State.log_jamSeen (d : Diagnostic) (s : State) : (s.log d).jamSeen = s.jamSeen := rfl
@[simp] theorem State.log_hung (d : Diagnostic) (s : State) : (s.log d).hung = s.hung := rfl

@[simp] theorem Cpu.setNZ_a (b : Byte) (c : Cpu) : (c.setNZ b).a = c.a := rfl
@[simp] theorem Cpu.setNZ_x (b : Byte) (c : Cpu) : (c.setNZ b).x = c.x := rfl
@[simp] theorem Cpu.setNZ_y (b : Byte) (c : Cpu) : (c.setNZ b).y = c.y := rfl
@[simp] theorem Cpu.setNZ_s (b : Byte) (c : Cpu) : (c.setNZ b).s = c.s := rfl
@[simp] theorem Cpu.setNZ_pc (b : Byte) (c : Cpu) : (c.setNZ b).pc = c.pc := rfl
@[simp] theorem Cpu.setNZ_c (b : Byte) (c : Cpu) : (c.setNZ b).c = c.c := rfl
@[simp] theorem Cpu.setNZ_z (b : Byte) (c : Cpu) : (c.setNZ b).z = (b == 0) := rfl
@[simp] theorem Cpu.setNZ_i (b : Byte) (c : Cpu) : (c.setNZ b).i = c.i := rfl
@[simp] theorem Cpu.setNZ_d (b : Byte) (c : Cpu) : (c.setNZ b).d = c.d := rfl
@[simp] theorem Cpu.setNZ_v (b : Byte) (c : Cpu) : (c.setNZ b).v = c.v := rfl
@[simp] theorem Cpu.setNZ_n (b : Byte) (c : Cpu) : (c.setNZ b).n = b.getLsbD 7 := rfl

@[simp] theorem Cpu.loadA_a (b : Byte) (c : Cpu) : (c.loadA b).a = b := rfl
@[simp] theorem Cpu.loadA_x (b : Byte) (c : Cpu) : (c.loadA b).x = c.x := rfl
@[simp] theorem Cpu.loadA_y (b : Byte) (c : Cpu) : (c.loadA b).y = c.y := rfl
@[simp] theorem Cpu.loadA_s (b : Byte) (c : Cpu) : (c.loadA b).s = c.s := rfl
@[simp] theorem Cpu.loadA_pc (b : Byte) (c : Cpu) : (c.loadA b).pc = c.pc := rfl
@[simp] theorem Cpu.loadA_c (b : Byte) (c : Cpu) : (c.loadA b).c = c.c := rfl
@[simp] theorem Cpu.loadA_z (b : Byte) (c : Cpu) : (c.loadA b).z = (b == 0) := rfl
@[simp] theorem Cpu.loadA_i (b : Byte) (c : Cpu) : (c.loadA b).i = c.i := rfl
@[simp] theorem Cpu.loadA_d (b : Byte) (c : Cpu) : (c.loadA b).d = c.d := rfl
@[simp] theorem Cpu.loadA_v (b : Byte) (c : Cpu) : (c.loadA b).v = c.v := rfl
@[simp] theorem Cpu.loadA_n (b : Byte) (c : Cpu) : (c.loadA b).n = b.getLsbD 7 := rfl

@[simp] theorem Cpu.loadX_a (b : Byte) (c : Cpu) : (c.loadX b).a = c.a := rfl
@[simp] theorem Cpu.loadX_x (b : Byte) (c : Cpu) : (c.loadX b).x = b := rfl
@[simp] theorem Cpu.loadX_y (b : Byte) (c : Cpu) : (c.loadX b).y = c.y := rfl
@[simp] theorem Cpu.loadX_s (b : Byte) (c : Cpu) : (c.loadX b).s = c.s := rfl
@[simp] theorem Cpu.loadX_pc (b : Byte) (c : Cpu) : (c.loadX b).pc = c.pc := rfl
@[simp] theorem Cpu.loadX_c (b : Byte) (c : Cpu) : (c.loadX b).c = c.c := rfl
@[simp] theorem Cpu.loadX_z (b : Byte) (c : Cpu) : (c.loadX b).z = (b == 0) := rfl
@[simp] theorem Cpu.loadX_i (b : Byte) (c : Cpu) : (c.loadX b).i = c.i := rfl
@[simp] theorem Cpu.loadX_d (b : Byte) (c : Cpu) : (c.loadX b).d = c.d := rfl
@[simp] theorem Cpu.loadX_v (b : Byte) (c : Cpu) : (c.loadX b).v = c.v := rfl
@[simp] theorem Cpu.loadX_n (b : Byte) (c : Cpu) : (c.loadX b).n = b.getLsbD 7 := rfl

@[simp] theorem Cpu.loadY_a (b : Byte) (c : Cpu) : (c.loadY b).a = c.a := rfl
@[simp] theorem Cpu.loadY_x (b : Byte) (c : Cpu) : (c.loadY b).x = c.x := rfl
@[simp] theorem Cpu.loadY_y (b : Byte) (c : Cpu) : (c.loadY b).y = b := rfl
@[simp] theorem Cpu.loadY_s (b : Byte) (c : Cpu) : (c.loadY b).s = c.s := rfl
@[simp] theorem Cpu.loadY_pc (b : Byte) (c : Cpu) : (c.loadY b).pc = c.pc := rfl
@[simp] theorem Cpu.loadY_c (b : Byte) (c : Cpu) : (c.loadY b).c = c.c := rfl
@[simp] theorem Cpu.loadY_z (b : Byte) (c : Cpu) : (c.loadY b).z = (b == 0) := rfl
@[simp] theorem Cpu.loadY_i (b : Byte) (c : Cpu) : (c.loadY b).i = c.i := rfl
@[simp] theorem Cpu.loadY_d (b : Byte) (c : Cpu) : (c.loadY b).d = c.d := rfl
@[simp] theorem Cpu.loadY_v (b : Byte) (c : Cpu) : (c.loadY b).v = c.v := rfl
@[simp] theorem Cpu.loadY_n (b : Byte) (c : Cpu) : (c.loadY b).n = b.getLsbD 7 := rfl

@[simp] theorem Cpu.setP_a (b : Byte) (c : Cpu) : (c.setP b).a = c.a := rfl
@[simp] theorem Cpu.setP_x (b : Byte) (c : Cpu) : (c.setP b).x = c.x := rfl
@[simp] theorem Cpu.setP_y (b : Byte) (c : Cpu) : (c.setP b).y = c.y := rfl
@[simp] theorem Cpu.setP_s (b : Byte) (c : Cpu) : (c.setP b).s = c.s := rfl
@[simp] theorem Cpu.setP_pc (b : Byte) (c : Cpu) : (c.setP b).pc = c.pc := rfl
@[simp] theorem Cpu.setP_c (b : Byte) (c : Cpu) : (c.setP b).c = b.getLsbD 0 := rfl
@[simp] theorem Cpu.setP_z (b : Byte) (c : Cpu) : (c.setP b).z = b.getLsbD 1 := rfl
@[simp] theorem Cpu.setP_i (b : Byte) (c : Cpu) : (c.setP b).i = b.getLsbD 2 := rfl
@[simp] theorem Cpu.setP_d (b : Byte) (c : Cpu) : (c.setP b).d = b.getLsbD 3 := rfl
@[simp] theorem Cpu.setP_v (b : Byte) (c : Cpu) : (c.setP b).v = b.getLsbD 6 := rfl
@[simp] theorem Cpu.setP_n (b : Byte) (c : Cpu) : (c.setP b).n = b.getLsbD 7 := rfl

end Sys2Proof.Machine
end

