-- ==== Sys2Proof/Laws/Stable.lean ====
section
/-! SUPPORT. What a bus operation, an instruction and a step can do, said once: a property that the primitive changes keep is kept
by every operation built from them. Frames and invariants are instances. -/

namespace Sys2Proof.Machine

/-- `P` is kept by everything that happens in and before a read: dots, ticks, the access, the end of a cycle, the stall and DMA
bookkeeping. The DMA engine's writes to OAMDATA matter only if `P` allows a pending DMA. -/
structure BusStable (P : State → Prop) : Prop where
  dot : ∀ s, P s → P (runDot s)
  tick : ∀ s, P s → P (apuTick s)
  access : ∀ a s, P s → P (busRead a s).2
  finish : ∀ s, P s → P (endCycle s)
  stall : ∀ s n, P s → P { s with bus := { s.bus with stall := n } }
  dmaStart : ∀ s, P s → P { s with bus := { s.bus with oamdmaPending := false } }
  hang : ∀ s, P s → P { s with hung := true }
  dma : (∀ s, P s → s.bus.oamdmaPending = false) ∨ (∀ v s, P s → P (busWrite 0x2004 v s))

/-- `P` is also kept by changes of the CPU's registers, of the pending flags the poll clears, and of the ghosts. -/
structure ReadStable (P : State → Prop) : Prop extends BusStable P where
  cpu : ∀ s c, P s → P { s with cpu := c }
  log : ∀ s d, P s → P { s with diag := s.diag ++ [d] }
  jam : ∀ s, P s → P { s with jamSeen := true }

/-- `P` is kept by a write at `a`. -/
def WriteStable (P : State → Prop) (a : Addr) : Prop := ∀ v s, P s → P (busWrite a v s)

section bus
variable {P : State → Prop}

theorem BusStable.runDots (h : BusStable P) (n : Nat) : ∀ s, P s → P (runDots n s) := by
  induction n with
  | zero => exact fun s hs => hs
  | succ n ih => exact fun s hs => ih _ (h.dot s hs)

theorem BusStable.beginCycle (h : BusStable P) {s : State} (hs : P s) : P (beginCycle s) :=
  h.tick _ (h.runDots _ _ hs)

theorem BusStable.idleCycle (h : BusStable P) {s : State} (hs : P s) : P (idleCycle s) :=
  h.finish _ (h.beginCycle hs)

theorem BusStable.readCycle (h : BusStable P) (a : Addr) {s : State} (hs : P s) : P (readCycle a s).2 :=
  h.finish _ (h.access a _ (h.beginCycle hs))

theorem BusStable.writeCycle (h : BusStable P) {a : Addr} (hw : WriteStable P a) (v : Byte) {s : State} (hs : P s) :
    P (writeCycle a v s) :=
  h.finish _ (hw v _ (h.beginCycle hs))

theorem BusStable.drainLoop (h : BusStable P) (fuel : Nat) : ∀ s, P s → P (drainLoop fuel s) := by
  induction fuel with
  | zero =>
    intro s hs
    unfold Machine.drainLoop
    split
    · exact hs
    · exact h.hang s hs
  | succ n ih =>
    intro s hs
    unfold Machine.drainLoop
    split
    · exact hs
    · exact ih _ (h.stall _ _ (h.idleCycle hs))

theorem BusStable.drainStall (h : BusStable P) {s : State} (hs : P s) : P (drainStall s) := h.drainLoop _ s hs

theorem BusStable.dmaCopy (h : BusStable P) (hw : WriteStable P 0x2004) (page : Byte) (n : Nat) :
    ∀ i s, P s → P (dmaCopy page n i s) := by
  induction n with
  | zero => exact fun _ s hs => hs
  | succ n ih => exact fun i s hs => ih _ _ (h.writeCycle hw _ (h.readCycle _ hs))

theorem BusStable.runDma (h : BusStable P) (hw : WriteStable P 0x2004) {s : State} (hs : P s) : P (runDma s) := by
  refine h.dmaCopy hw _ _ _ _ ?_
  unfold dmaAlign
  have hi := h.idleCycle (h.dmaStart s hs)
  dsimp only
  split
  · exact h.idleCycle hi
  · exact hi

theorem preRead_eq (s : State) : preRead s =
    if (drainStall s).bus.oamdmaPending = true then drainStall (runDma (drainStall s)) else drainStall s := rfl

theorem preRead_of_no_dma {s : State} (h : (drainStall s).bus.oamdmaPending = false) : preRead s = drainStall s := by
  rw [preRead_eq, h, if_neg Bool.false_ne_true]

theorem preRead_of_dma {s : State} (h : (drainStall s).bus.oamdmaPending = true) :
    preRead s = drainStall (runDma (drainStall s)) := by
  rw [preRead_eq, h, if_pos rfl]

theorem BusStable.preRead (h : BusStable P) {s : State} (hs : P s) : P (preRead s) := by
  have hd := h.drainStall hs
  cases hp : (Machine.drainStall s).bus.oamdmaPending with
  | false => rw [preRead_of_no_dma hp]; exact hd
  | true =>
    rcases h.dma with hf | hw
    · rw [hf _ hd] at hp
      cases hp
    · rw [preRead_of_dma hp]
      exact h.drainStall (h.runDma hw hd)

theorem BusStable.memRead (h : BusStable P) (a : Addr) {s : State} (hs : P s) : P (memRead a s).2 :=
  h.readCycle a (h.preRead hs)

theorem BusStable.dummyRead (h : BusStable P) (a : Addr) {s : State} (hs : P s) : P (dummyRead a s) := h.memRead a hs

theorem BusStable.memWrite (h : BusStable P) {a : Addr} (hw : WriteStable P a) (v : Byte) {s : State} (hs : P s) :
    P (memWrite a v s) :=
  h.writeCycle hw v hs

theorem BusStable.readWord (h : BusStable P) (lo hi : Addr) {s : State} (hs : P s) : P (readWord lo hi s).2 :=
  h.memRead _ (h.memRead _ hs)

theorem BusStable.indexed (h : BusStable P) (cls : AccClass) (base : Addr) (i : Byte) {s : State} (hs : P s) :
    P (indexed cls base i s).2 := by
  unfold Machine.indexed
  dsimp only
  split
  · exact hs
  · exact h.dummyRead _ hs

theorem BusStable.effAddr (h : BusStable P) (cls : AccClass) (m : MemOperand) {s : State} (hs : P s) :
    P (effAddr cls m s).2 := by
  cases m with
  | zp => exact hs
  | zpx => exact h.dummyRead _ hs
  | zpy => exact h.dummyRead _ hs
  | abs => exact hs
  | abx => exact h.indexed _ _ _ hs
  | aby => exact h.indexed _ _ _ hs
  | izx => exact h.readWord _ _ (h.dummyRead _ hs)
  | izy => exact h.indexed _ _ _ (h.readWord _ _ hs)

theorem BusStable.readSrc (h : BusStable P) (x : Src) {s : State} (hs : P s) : P (readSrc x s).2 := by
  cases x with
  | imm => exact hs
  | mem m => exact h.memRead _ (h.effAddr _ m hs)

theorem BusStable.storeOperand (h : BusStable P) (v : Cpu → Byte) (m : MemOperand) {s : State}
    (hw : WriteStable P (Machine.effAddr .write m s).1) (hs : P s) : P (storeOperand v m s) :=
  h.memWrite hw _ (h.effAddr _ m hs)

theorem BusStable.storeHigh (h : BusStable P) (reg : Byte) (base : Addr) (i : Byte) {s : State}
    (hw : WriteStable P (highTarget base i (reg &&& (hi8 base + 1)))) (hs : P s) : P (storeHigh reg base i s) :=
  h.memWrite hw _ (h.indexed _ _ _ hs)

end bus

section read
variable {P : State → Prop}

theorem ReadStable.mapCpu (h : ReadStable P) (f : Cpu → Cpu) {s : State} (hs : P s) : P (s.mapCpu f) := h.cpu s _ hs

theorem ReadStable.setPc (h : ReadStable P) (v : Addr) {s : State} (hs : P s) : P (s.setPc v) := h.cpu s _ hs

theorem ReadStable.setS (h : ReadStable P) (v : Byte) {s : State} (hs : P s) : P (s.setS v) := h.cpu s _ hs

theorem ReadStable.setI (h : ReadStable P) (v : Bool) {s : State} (hs : P s) : P (s.setI v) := h.cpu s _ hs

theorem ReadStable.fetch (h : ReadStable P) {s : State} (hs : P s) : P (fetch s).2 := h.setPc _ (h.memRead _ hs)

theorem ReadStable.push (h : ReadStable P) {s : State} (hw : WriteStable P (stackAddr s.cpu.s)) (v : Byte) (hs : P s) :
    P (push v s) :=
  h.setS _ (h.memWrite hw v hs)

theorem ReadStable.pull (h : ReadStable P) {s : State} (hs : P s) : P (pull s).2 := h.memRead _ (h.setS _ hs)

theorem ReadStable.dummyStack (h : ReadStable P) {s : State} (hs : P s) : P (dummyStack s) := h.dummyRead _ hs

theorem ReadStable.fetchInstr (h : ReadStable P) {s : State} (hs : P s) : P (fetchInstr s).2 := by
  have h1 := h.fetch hs
  unfold Machine.fetchInstr
  dsimp only
  split
  · exact h1
  · exact h.fetch h1
  · split
    · exact h.fetch h1
    · exact h.fetch (h.fetch h1)

theorem ReadStable.returnFromException (h : ReadStable P) {s : State} (hs : P s) : P (returnFromException s) :=
  h.setPc _ (h.pull (h.pull (h.mapCpu _ (h.pull hs))))

theorem ReadStable.resetStackCycle (h : ReadStable P) {s : State} (hs : P s) : P (resetStackCycle s) :=
  h.setS _ (h.dummyStack hs)

theorem ReadStable.implied (h : ReadStable P) (f : Cpu → Cpu) {s : State} (hs : P s) : P (implied f s) :=
  h.mapCpu f (h.dummyRead _ hs)

theorem ReadStable.readOperand (h : ReadStable P) (f : Byte → Cpu → Cpu) (x : Src) {s : State} (hs : P s) :
    P (readOperand f x s) :=
  h.mapCpu _ (h.readSrc x hs)

theorem ReadStable.modifyAcc (h : ReadStable P) (f : Byte → Cpu → Byte × Cpu) {s : State} (hs : P s) :
    P (modifyAcc f s) :=
  h.cpu _ _ (h.dummyRead _ hs)

theorem ReadStable.modifyOperand (h : ReadStable P) (f : Byte → Cpu → Byte × Cpu) (m : MemOperand) {s : State}
    (hw : WriteStable P (effAddr .modify m s).1) (hs : P s) : P (modifyOperand f m s) :=
  h.memWrite hw _ (h.cpu _ _ (h.memWrite hw _ (h.memRead _ (h.effAddr _ m hs))))

theorem ReadStable.branch (h : ReadStable P) (c : Bool) (o : Byte) {s : State} (hs : P s) : P (branch c o s) := by
  have h1 := h.dummyRead s.cpu.pc hs
  unfold Machine.branch
  split
  · refine h.setPc _ ?_
    split
    · exact h1
    · exact h.dummyRead _ h1
  · exact hs

theorem ReadStable.nopAccesses (h : ReadStable P) (f : Form) {s : State} (hs : P s) : P (nopAccesses f s) := by
  cases f with
  | src x => exact h.readSrc x hs
  | imp => exact h.dummyRead _ hs
  | acc => exact h.dummyRead _ hs
  | rel => exact h.dummyRead _ hs
  | ind => exact h.dummyRead _ hs

theorem ReadStable.takeException (h : ReadStable P) (hw : ∀ p, WriteStable P (stackAddr p)) (vec : Addr) (b : Bool)
    {s : State} (hs : P s) : P (takeException vec b s) :=
  h.setPc _ (h.readWord _ _ (h.setI _ (h.push (hw _) _ (h.push (hw _) _ (h.push (hw _) _ hs)))))

theorem ReadStable.interruptEntry (h : ReadStable P) (hw : ∀ p, WriteStable P (stackAddr p)) (vec : Addr)
    {s : State} (hs : P s) : P (interruptEntry vec s) :=
  h.takeException hw _ _ (h.dummyRead _ (h.dummyRead _ hs))

end read

/-- What the no-operation policy keeps. -/
theorem ReadStable.nopPolicy {P : State → Prop} (h : ReadStable P) (i : Instr) {s : State} (hs : P s) :
    P ((Machine.nopAccesses i.form s).log (illegalOpcode i.opcode (instrLength i.opcode) s.cpu.pc)) :=
  h.log _ _ (h.nopAccesses _ hs)

/-- What every instruction keeps, if `P` is kept by a write at any address. -/
theorem ReadStable.exec {P : State → Prop} (h : ReadStable P) (hw : ∀ a, WriteStable P a) (i : Instr) {s t : State}
    (he : exec i s = .next t) (hs : P s) : P t := by
  rw [exec_eq_view] at he
  unfold execView at he
  cases hm : i.mnem <;> rw [hm] at he <;> dsimp only at he
  case brk =>
    cases he; exact h.takeException (fun _ => hw _) _ _ (h.fetch hs)
  case ora =>
    obtain ⟨x, -, rfl⟩ := onSrc_next he; exact h.readOperand _ x hs
  case jam =>
    cases he; exact h.jam _ (h.log _ _ (h.dummyRead _ hs))
  case slo =>
    rcases unofficial_next he with ⟨hd, he⟩ | ⟨-, rfl⟩
    · obtain ⟨m, -, rfl⟩ := onMem_next he; exact h.modifyOperand _ m (hw _) hs
    · exact h.nopPolicy i hs
  case nopU =>
    rcases unofficial_next he with ⟨-, he⟩ | ⟨-, rfl⟩
    · cases he; exact h.nopAccesses _ hs
    · exact h.nopPolicy i hs
  case asl =>
    rcases onMemAcc_next he with ⟨m, hf, rfl⟩ | ⟨-, rfl⟩
    · exact h.modifyOperand _ m (hw _) hs
    · exact h.modifyAcc _ hs
  case php =>
    cases he; exact h.push (hw _) _ (h.dummyRead _ hs)
  case anc =>
    rcases unofficial_next he with ⟨-, he⟩ | ⟨-, rfl⟩
    · obtain ⟨x, -, rfl⟩ := onSrc_next he; exact h.readOperand _ x hs
    · exact h.nopPolicy i hs
  case bpl =>
    obtain ⟨o, -, rfl⟩ := onRel_next he; exact h.branch _ o hs
  case clc =>
    cases he; exact h.implied _ hs
  case jsr =>
    split at he
    · cases he; exact h.setPc _ (h.memRead _ (h.push (hw _) _ (h.push (hw _) _ (h.dummyStack hs))))
    · cases he
  case and =>
    obtain ⟨x, -, rfl⟩ := onSrc_next he; exact h.readOperand _ x hs
  case rla =>
    rcases unofficial_next he with ⟨hd, he⟩ | ⟨-, rfl⟩
    · obtain ⟨m, -, rfl⟩ := onMem_next he; exact h.modifyOperand _ m (hw _) hs
    · exact h.nopPolicy i hs
  case bit =>
    obtain ⟨x, -, rfl⟩ := onSrc_next he; exact h.readOperand _ x hs
  case rol =>
    rcases onMemAcc_next he with ⟨m, hf, rfl⟩ | ⟨-, rfl⟩
    · exact h.modifyOperand _ m (hw _) hs
    · exact h.modifyAcc _ hs
  case plp =>
    cases he; exact h.mapCpu _ (h.pull (h.dummyStack (h.dummyRead _ hs)))
  case bmi =>
    obtain ⟨o, -, rfl⟩ := onRel_next he; exact h.branch _ o hs
  case sec =>
    cases he; exact h.implied _ hs
  case rti =>
    cases he; exact h.returnFromException (h.dummyStack (h.dummyRead _ hs))
  case eor =>
    obtain ⟨x, -, rfl⟩ := onSrc_next he; exact h.readOperand _ x hs
  case sre =>
    rcases unofficial_next he with ⟨hd, he⟩ | ⟨-, rfl⟩
    · obtain ⟨m, -, rfl⟩ := onMem_next he; exact h.modifyOperand _ m (hw _) hs
    · exact h.nopPolicy i hs
  case lsr =>
    rcases onMemAcc_next he with ⟨m, hf, rfl⟩ | ⟨-, rfl⟩
    · exact h.modifyOperand _ m (hw _) hs
    · exact h.modifyAcc _ hs
  case pha =>
    cases he; exact h.push (hw _) _ (h.dummyRead _ hs)
  case alr =>
    rcases unofficial_next he with ⟨-, he⟩ | ⟨-, rfl⟩
    · obtain ⟨x, -, rfl⟩ := onSrc_next he; exact h.readOperand _ x hs
    · exact h.nopPolicy i hs
  case jmp =>
    rcases onJump_next he with ⟨l, u, -, rfl⟩ | ⟨l, u, -, rfl⟩
    · exact h.setPc _ hs
    · exact h.setPc _ (h.readWord _ _ hs)
  case bvc =>
    obtain ⟨o, -, rfl⟩ := onRel_next he; exact h.branch _ o hs
  case cli =>
    cases he; exact h.implied _ hs
  case rts =>
    cases he; exact h.setPc _ (h.dummyRead _ (h.setPc _ (h.pull (h.pull (h.dummyStack (h.dummyRead _ hs))))))
  case adc =>
    obtain ⟨x, -, rfl⟩ := onSrc_next he; exact h.readOperand _ x hs
  case rra =>
    rcases unofficial_next he with ⟨hd, he⟩ | ⟨-, rfl⟩
    · obtain ⟨m, -, rfl⟩ := onMem_next he; exact h.modifyOperand _ m (hw _) hs
    · exact h.nopPolicy i hs
  case ror =>
    rcases onMemAcc_next he with ⟨m, hf, rfl⟩ | ⟨-, rfl⟩
    · exact h.modifyOperand _ m (hw _) hs
    · exact h.modifyAcc _ hs
  case pla =>
    cases he; exact h.mapCpu _ (h.pull (h.dummyStack (h.dummyRead _ hs)))
  case arr =>
    rcases unofficial_next he with ⟨-, he⟩ | ⟨-, rfl⟩
    · obtain ⟨x, -, rfl⟩ := onSrc_next he; exact h.readOperand _ x hs
    · exact h.nopPolicy i hs
  case bvs =>
    obtain ⟨o, -, rfl⟩ := onRel_next he; exact h.branch _ o hs
  case sei =>
    cases he; exact h.implied _ hs
  case sta =>
    obtain ⟨m, -, rfl⟩ := onMem_next he; exact h.storeOperand _ m (hw _) hs
  case sax =>
    rcases unofficial_next he with ⟨hd, he⟩ | ⟨-, rfl⟩
    · obtain ⟨m, -, rfl⟩ := onMem_next he; exact h.storeOperand _ m (hw _) hs
    · exact h.nopPolicy i hs
  case sty =>
    obtain ⟨m, -, rfl⟩ := onMem_next he; exact h.storeOperand _ m (hw _) hs
  case stx =>
    obtain ⟨m, -, rfl⟩ := onMem_next he; exact h.storeOperand _ m (hw _) hs
  case dey =>
    cases he; exact h.implied _ hs
  case txa =>
    cases he; exact h.implied _ hs
  case xaa =>
    rcases unofficial_next he with ⟨-, he⟩ | ⟨-, rfl⟩
    · obtain ⟨x, -, rfl⟩ := onSrc_next he; exact h.readOperand _ x hs
    · exact h.nopPolicy i hs
  case bcc =>
    obtain ⟨o, -, rfl⟩ := onRel_next he; exact h.branch _ o hs
  case sha =>
    rcases unofficial_next he with ⟨hd, he⟩ | ⟨-, rfl⟩
    · rcases onHigh_next he with ⟨l, u, -, rfl⟩ | ⟨l, u, -, rfl⟩ | ⟨z, -, rfl⟩
      · exact h.storeHigh _ _ _ (hw _) hs
      · exact h.storeHigh _ _ _ (hw _) hs
      · exact h.storeHigh _ _ _ (hw _) (h.readWord _ _ hs)
    · exact h.nopPolicy i hs
  case tya =>
    cases he; exact h.implied _ hs
  case txs =>
    cases he; exact h.implied _ hs
  case tas =>
    rcases unofficial_next he with ⟨hd, he⟩ | ⟨-, rfl⟩
    · rcases onHigh_next he with ⟨l, u, -, rfl⟩ | ⟨l, u, -, rfl⟩ | ⟨z, -, rfl⟩
      · exact h.storeHigh _ _ _ (hw _) (h.setS _ hs)
      · exact h.storeHigh _ _ _ (hw _) (h.setS _ hs)
      · exact h.storeHigh _ _ _ (hw _) (h.setS _ (h.readWord _ _ hs))
    · exact h.nopPolicy i hs
  case shy =>
    rcases unofficial_next he with ⟨hd, he⟩ | ⟨-, rfl⟩
    · rcases onHigh_next he with ⟨l, u, -, rfl⟩ | ⟨l, u, -, rfl⟩ | ⟨z, -, rfl⟩
      · exact h.storeHigh _ _ _ (hw _) hs
      · exact h.storeHigh _ _ _ (hw _) hs
      · exact h.storeHigh _ _ _ (hw _) (h.readWord _ _ hs)
    · exact h.nopPolicy i hs
  case shx =>
    rcases unofficial_next he with ⟨hd, he⟩ | ⟨-, rfl⟩
    · rcases onHigh_next he with ⟨l, u, -, rfl⟩ | ⟨l, u, -, rfl⟩ | ⟨z, -, rfl⟩
      · exact h.storeHigh _ _ _ (hw _) hs
      · exact h.storeHigh _ _ _ (hw _) hs
      · exact h.storeHigh _ _ _ (hw _) (h.readWord _ _ hs)
    · exact h.nopPolicy i hs
  case ldy =>
    obtain ⟨x, -, rfl⟩ := onSrc_next he; exact h.readOperand _ x hs
  case lda =>
    obtain ⟨x, -, rfl⟩ := onSrc_next he; exact h.readOperand _ x hs
  case ldx =>
    obtain ⟨x, -, rfl⟩ := onSrc_next he; exact h.readOperand _ x hs
  case lax =>
    rcases unofficial_next he with ⟨-, he⟩ | ⟨-, rfl⟩
    · obtain ⟨x, -, rfl⟩ := onSrc_next he; exact h.readOperand _ x hs
    · exact h.nopPolicy i hs
  case tay =>
    cases he; exact h.implied _ hs
  case tax =>
    cases he; exact h.implied _ hs
  case lxa =>
    rcases unofficial_next he with ⟨-, he⟩ | ⟨-, rfl⟩
    · obtain ⟨x, -, rfl⟩ := onSrc_next he; exact h.readOperand _ x hs
    · exact h.nopPolicy i hs
  case bcs =>
    obtain ⟨o, -, rfl⟩ := onRel_next he; exact h.branch _ o hs
  case clv =>
    cases he; exact h.implied _ hs
  case tsx =>
    cases he; exact h.implied _ hs
  case las =>
    rcases unofficial_next he with ⟨-, he⟩ | ⟨-, rfl⟩
    · obtain ⟨x, -, rfl⟩ := onSrc_next he; exact h.readOperand _ x hs
    · exact h.nopPolicy i hs
  case cpy =>
    obtain ⟨x, -, rfl⟩ := onSrc_next he; exact h.readOperand _ x hs
  case cmp =>
    obtain ⟨x, -, rfl⟩ := onSrc_next he; exact h.readOperand _ x hs
  case dcp =>
    rcases unofficial_next he with ⟨hd, he⟩ | ⟨-, rfl⟩
    · obtain ⟨m, -, rfl⟩ := onMem_next he; exact h.modifyOperand _ m (hw _) hs
    · exact h.nopPolicy i hs
  case dec =>
    obtain ⟨m, -, rfl⟩ := onMem_next he; exact h.modifyOperand _ m (hw _) hs
  case iny =>
    cases he; exact h.implied _ hs
  case dex =>
    cases he; exact h.implied _ hs
  case axs =>
    rcases unofficial_next he with ⟨-, he⟩ | ⟨-, rfl⟩
    · obtain ⟨x, -, rfl⟩ := onSrc_next he; exact h.readOperand _ x hs
    · exact h.nopPolicy i hs
  case bne =>
    obtain ⟨o, -, rfl⟩ := onRel_next he; exact h.branch _ o hs
  case cld =>
    cases he; exact h.implied _ hs
  case cpx =>
    obtain ⟨x, -, rfl⟩ := onSrc_next he; exact h.readOperand _ x hs
  case sbc =>
    obtain ⟨x, -, rfl⟩ := onSrc_next he; exact h.readOperand _ x hs
  case isc =>
    rcases unofficial_next he with ⟨hd, he⟩ | ⟨-, rfl⟩
    · obtain ⟨m, -, rfl⟩ := onMem_next he; exact h.modifyOperand _ m (hw _) hs
    · exact h.nopPolicy i hs
  case inc =>
    obtain ⟨m, -, rfl⟩ := onMem_next he; exact h.modifyOperand _ m (hw _) hs
  case inx =>
    cases he; exact h.implied _ hs
  case nop =>
    cases he; exact h.implied _ hs
  case sbcU =>
    rcases unofficial_next he with ⟨-, he⟩ | ⟨-, rfl⟩
    · obtain ⟨x, -, rfl⟩ := onSrc_next he; exact h.readOperand _ x hs
    · exact h.nopPolicy i hs
  case beq =>
    obtain ⟨o, -, rfl⟩ := onRel_next he; exact h.branch _ o hs
  case sed =>
    cases he; exact h.implied _ hs

/-- What an instruction that stores nothing keeps. -/
theorem ReadStable.exec_of_not_stores {P : State → Prop} (h : ReadStable P) (i : Instr) {s t : State}
    (hi : i.stores s.cfg.unofficial = false) (he : Machine.exec i s = .next t) (hs : P s) : P t := by
  rw [exec_eq_view] at he
  unfold execView at he
  unfold Instr.stores at hi
  cases hm : i.mnem <;> rw [hm] at he hi <;> dsimp only at he hi
  case brk =>
    cases hi
  case ora =>
    obtain ⟨x, -, rfl⟩ := onSrc_next he; exact h.readOperand _ x hs
  case jam =>
    cases he; exact h.jam _ (h.log _ _ (h.dummyRead _ hs))
  case slo =>
    rcases unofficial_next he with ⟨hd, he⟩ | ⟨-, rfl⟩
    · rw [hd] at hi; cases hi
    · exact h.nopPolicy i hs
  case nopU =>
    rcases unofficial_next he with ⟨-, he⟩ | ⟨-, rfl⟩
    · cases he; exact h.nopAccesses _ hs
    · exact h.nopPolicy i hs
  case asl =>
    rcases onMemAcc_next he with ⟨m, hf, rfl⟩ | ⟨-, rfl⟩
    · rw [hf] at hi; cases hi
    · exact h.modifyAcc _ hs
  case php =>
    cases hi
  case anc =>
    rcases unofficial_next he with ⟨-, he⟩ | ⟨-, rfl⟩
    · obtain ⟨x, -, rfl⟩ := onSrc_next he; exact h.readOperand _ x hs
    · exact h.nopPolicy i hs
  case bpl =>
    obtain ⟨o, -, rfl⟩ := onRel_next he; exact h.branch _ o hs
  case clc =>
    cases he; exact h.implied _ hs
  case jsr =>
    cases hi
  case and =>
    obtain ⟨x, -, rfl⟩ := onSrc_next he; exact h.readOperand _ x hs
  case rla =>
    rcases unofficial_next he with ⟨hd, he⟩ | ⟨-, rfl⟩
    · rw [hd] at hi; cases hi
    · exact h.nopPolicy i hs
  case bit =>
    obtain ⟨x, -, rfl⟩ := onSrc_next he; exact h.readOperand _ x hs
  case rol =>
    rcases onMemAcc_next he with ⟨m, hf, rfl⟩ | ⟨-, rfl⟩
    · rw [hf] at hi; cases hi
    · exact h.modifyAcc _ hs
  case plp =>
    cases he; exact h.mapCpu _ (h.pull (h.dummyStack (h.dummyRead _ hs)))
  case bmi =>
    obtain ⟨o, -, rfl⟩ := onRel_next he; exact h.branch _ o hs
  case sec =>
    cases he; exact h.implied _ hs
  case rti =>
    cases he; exact h.returnFromException (h.dummyStack (h.dummyRead _ hs))
  case eor =>
    obtain ⟨x, -, rfl⟩ := onSrc_next he; exact h.readOperand _ x hs
  case sre =>
    rcases unofficial_next he with ⟨hd, he⟩ | ⟨-, rfl⟩
    · rw [hd] at hi; cases hi
    · exact h.nopPolicy i hs
  case lsr =>
    rcases onMemAcc_next he with ⟨m, hf, rfl⟩ | ⟨-, rfl⟩
    · rw [hf] at hi; cases hi
    · exact h.modifyAcc _ hs
  case pha =>
    cases hi
  case alr =>
    rcases unofficial_next he with ⟨-, he⟩ | ⟨-, rfl⟩
    · obtain ⟨x, -, rfl⟩ := onSrc_next he; exact h.readOperand _ x hs
    · exact h.nopPolicy i hs
  case jmp =>
    rcases onJump_next he with ⟨l, u, -, rfl⟩ | ⟨l, u, -, rfl⟩
    · exact h.setPc _ hs
    · exact h.setPc _ (h.readWord _ _ hs)
  case bvc =>
    obtain ⟨o, -, rfl⟩ := onRel_next he; exact h.branch _ o hs
  case cli =>
    cases he; exact h.implied _ hs
  case rts =>
    cases he; exact h.setPc _ (h.dummyRead _ (h.setPc _ (h.pull (h.pull (h.dummyStack (h.dummyRead _ hs))))))
  case adc =>
    obtain ⟨x, -, rfl⟩ := onSrc_next he; exact h.readOperand _ x hs
  case rra =>
    rcases unofficial_next he with ⟨hd, he⟩ | ⟨-, rfl⟩
    · rw [hd] at hi; cases hi
    · exact h.nopPolicy i hs
  case ror =>
    rcases onMemAcc_next he with ⟨m, hf, rfl⟩ | ⟨-, rfl⟩
    · rw [hf] at hi; cases hi
    · exact h.modifyAcc _ hs
  case pla =>
    cases he; exact h.mapCpu _ (h.pull (h.dummyStack (h.dummyRead _ hs)))
  case arr =>
    rcases unofficial_next he with ⟨-, he⟩ | ⟨-, rfl⟩
    · obtain ⟨x, -, rfl⟩ := onSrc_next he; exact h.readOperand _ x hs
    · exact h.nopPolicy i hs
  case bvs =>
    obtain ⟨o, -, rfl⟩ := onRel_next he; exact h.branch _ o hs
  case sei =>
    cases he; exact h.implied _ hs
  case sta =>
    cases hi
  case sax =>
    rcases unofficial_next he with ⟨hd, he⟩ | ⟨-, rfl⟩
    · rw [hd] at hi; cases hi
    · exact h.nopPolicy i hs
  case sty =>
    cases hi
  case stx =>
    cases hi
  case dey =>
    cases he; exact h.implied _ hs
  case txa =>
    cases he; exact h.implied _ hs
  case xaa =>
    rcases unofficial_next he with ⟨-, he⟩ | ⟨-, rfl⟩
    · obtain ⟨x, -, rfl⟩ := onSrc_next he; exact h.readOperand _ x hs
    · exact h.nopPolicy i hs
  case bcc =>
    obtain ⟨o, -, rfl⟩ := onRel_next he; exact h.branch _ o hs
  case sha =>
    rcases unofficial_next he with ⟨hd, he⟩ | ⟨-, rfl⟩
    · rw [hd] at hi; cases hi
    · exact h.nopPolicy i hs
  case tya =>
    cases he; exact h.implied _ hs
  case txs =>
    cases he; exact h.implied _ hs
  case tas =>
    rcases unofficial_next he with ⟨hd, he⟩ | ⟨-, rfl⟩
    · rw [hd] at hi; cases hi
    · exact h.nopPolicy i hs
  case shy =>
    rcases unofficial_next he with ⟨hd, he⟩ | ⟨-, rfl⟩
    · rw [hd] at hi; cases hi
    · exact h.nopPolicy i hs
  case shx =>
    rcases unofficial_next he with ⟨hd, he⟩ | ⟨-, rfl⟩
    · rw [hd] at hi; cases hi
    · exact h.nopPolicy i hs
  case ldy =>
    obtain ⟨x, -, rfl⟩ := onSrc_next he; exact h.readOperand _ x hs
  case lda =>
    obtain ⟨x, -, rfl⟩ := onSrc_next he; exact h.readOperand _ x hs
  case ldx =>
    obtain ⟨x, -, rfl⟩ := onSrc_next he; exact h.readOperand _ x hs
  case lax =>
    rcases unofficial_next he with ⟨-, he⟩ | ⟨-, rfl⟩
    · obtain ⟨x, -, rfl⟩ := onSrc_next he; exact h.readOperand _ x hs
    · exact h.nopPolicy i hs
  case tay =>
    cases he; exact h.implied _ hs
  case tax =>
    cases he; exact h.implied _ hs
  case lxa =>
    rcases unofficial_next he with ⟨-, he⟩ | ⟨-, rfl⟩
    · obtain ⟨x, -, rfl⟩ := onSrc_next he; exact h.readOperand _ x hs
    · exact h.nopPolicy i hs
  case bcs =>
    obtain ⟨o, -, rfl⟩ := onRel_next he; exact h.branch _ o hs
  case clv =>
    cases he; exact h.implied _ hs
  case tsx =>
    cases he; exact h.implied _ hs
  case las =>
    rcases unofficial_next he with ⟨-, he⟩ | ⟨-, rfl⟩
    · obtain ⟨x, -, rfl⟩ := onSrc_next he; exact h.readOperand _ x hs
    · exact h.nopPolicy i hs
  case cpy =>
    obtain ⟨x, -, rfl⟩ := onSrc_next he; exact h.readOperand _ x hs
  case cmp =>
    obtain ⟨x, -, rfl⟩ := onSrc_next he; exact h.readOperand _ x hs
  case dcp =>
    rcases unofficial_next he with ⟨hd, he⟩ | ⟨-, rfl⟩
    · rw [hd] at hi; cases hi
    · exact h.nopPolicy i hs
  case dec =>
    cases hi
  case iny =>
    cases he; exact h.implied _ hs
  case dex =>
    cases he; exact h.implied _ hs
  case axs =>
    rcases unofficial_next he with ⟨-, he⟩ | ⟨-, rfl⟩
    · obtain ⟨x, -, rfl⟩ := onSrc_next he; exact h.readOperand _ x hs
    · exact h.nopPolicy i hs
  case bne =>
    obtain ⟨o, -, rfl⟩ := onRel_next he; exact h.branch _ o hs
  case cld =>
    cases he; exact h.implied _ hs
  case cpx =>
    obtain ⟨x, -, rfl⟩ := onSrc_next he; exact h.readOperand _ x hs
  case sbc =>
    obtain ⟨x, -, rfl⟩ := onSrc_next he; exact h.readOperand _ x hs
  case isc =>
    rcases unofficial_next he with ⟨hd, he⟩ | ⟨-, rfl⟩
    · rw [hd] at hi; cases hi
    · exact h.nopPolicy i hs
  case inc =>
    cases hi
  case inx =>
    cases he; exact h.implied _ hs
  case nop =>
    cases he; exact h.implied _ hs
  case sbcU =>
    rcases unofficial_next he with ⟨-, he⟩ | ⟨-, rfl⟩
    · obtain ⟨x, -, rfl⟩ := onSrc_next he; exact h.readOperand _ x hs
    · exact h.nopPolicy i hs
  case beq =>
    obtain ⟨o, -, rfl⟩ := onRel_next he; exact h.branch _ o hs
  case sed =>
    cases he; exact h.implied _ hs

/-- A step that has a next state: a reset sequence, an interrupt entry, or an instruction fetched, decoded and executed. -/
theorem step_cases {s t : State} (h : step s = .next t) :
    s.power ≠ .off ∧ s.hung = false ∧ t.hung = false ∧
    ((s.bus.resetPending = true ∧ t = resetSequence s) ∨
     (s.bus.resetPending = false ∧ s.bus.nmiPending = true ∧ t = nmiEntry s) ∨
     (s.bus.resetPending = false ∧ s.bus.nmiPending = false ∧ irqTaken s = true ∧ t = irqEntry s) ∨
     (s.bus.resetPending = false ∧ s.bus.nmiPending = false ∧ irqTaken s = false ∧
      ∃ r, decode (fetchInstr s).1 = .ok r ∧ Machine.exec r.1 (fetchInstr s).2 = .next t)) := by
  unfold Machine.step at h
  split at h
  · cases h
  · rename_i hp
    split at h
    · cases h
    · rename_i hh
      have hb : boundary s = .next t ∧ t.hung = false := by
        unfold checkHung at h
        split at h
        · rename_i u hu
          split at h
          · cases h
          · cases h
            exact ⟨hu, eq_false_of_ne_true ‹_›⟩
        · cases h
        · cases h
      refine ⟨hp, by simpa using hh, hb.2, ?_⟩
      have hb := hb.1
      unfold boundary at hb
      split at hb
      · cases hb
        exact Or.inl ⟨‹_›, rfl⟩
      · rename_i h1
        have h1 : s.bus.resetPending = false := by simpa using h1
        split at hb
        · cases hb
          exact Or.inr (Or.inl ⟨h1, ‹_›, rfl⟩)
        · rename_i h2
          have h2 : s.bus.nmiPending = false := by simpa using h2
          split at hb
          · cases hb
            exact Or.inr (Or.inr (Or.inl ⟨h1, h2, ‹_›, rfl⟩))
          · rename_i h3
            have h3 : irqTaken s = false := by simpa using h3
            unfold runInstruction at hb
            dsimp only at hb
            split at hb
            · exact Or.inr (Or.inr (Or.inr ⟨h1, h2, h3, _, ‹_›, hb⟩))
            · cases hb

/-- What every step keeps. -/
theorem ReadStable.step {P : State → Prop} (h : ReadStable P) (hw : ∀ a, WriteStable P a)
    (hreset : ∀ s, P s → P { s with bus := { s.bus with resetPending := false } })
    (hnmi : ∀ s, P s → P { s with bus := { s.bus with nmiPending := false } }) {s t : State}
    (he : step s = .next t) (hs : P s) : P t := by
  obtain ⟨-, -, -, ⟨-, rfl⟩ | ⟨-, -, rfl⟩ | ⟨-, -, -, rfl⟩ | ⟨-, -, -, r, -, hx⟩⟩ := step_cases he
  · exact h.setPc _ (h.readWord _ _ (h.setI _ (h.resetStackCycle (h.resetStackCycle (h.resetStackCycle
      (h.dummyRead _ (h.dummyRead _ (hreset s hs))))))))
  · exact h.interruptEntry (fun _ => hw _) _ (hnmi s hs)
  · exact h.interruptEntry (fun _ => hw _) _ hs
  · exact h.exec hw r.1 hx (h.fetchInstr hs)

end Sys2Proof.Machine
end

