-- ==== Sys2Proof/Laws/Frames.lean ====
section
/-! SUPPORT. What reads and writes leave unchanged, and the values they move: the frames of the bus operations. -/

namespace Sys2Proof.Machine

/-! Time and reads. -/

theorem Untouched.refl (s : State) : Untouched s s :=
  ⟨rfl, rfl, rfl, rfl, rfl, rfl, rfl, rfl, rfl, rfl, rfl, rfl, rfl, rfl, rfl, rfl, rfl, rfl, rfl, rfl, rfl, rfl, rfl, rfl⟩

theorem Untouched.trans {s t u : State} (h : Untouched s t) (k : Untouched t u) : Untouched s u :=
  ⟨k.cfg.trans h.cfg, k.image.trans h.image, k.power.trans h.power, k.resetPending.trans h.resetPending,
    k.ram.trans h.ram, k.prgRam.trans h.prgRam, k.chrRam.trans h.chrRam, k.ciram.trans h.ciram, k.pal.trans h.pal,
    k.mapper.trans h.mapper, k.ctrl.trans h.ctrl, k.mask.trans h.mask, k.scrollT.trans h.scrollT,
    k.scrollX.trans h.scrollX, k.wantVideo.trans h.wantVideo, k.pulse1.trans h.pulse1, k.pulse2.trans h.pulse2,
    k.triangle.trans h.triangle, k.noise.trans h.noise, k.dmc.trans h.dmc, k.fcMode.trans h.fcMode,
    k.fcInhibit.trans h.fcInhibit, k.strobe.trans h.strobe, k.latched.trans h.latched⟩

theorem runDot_untouched (s : State) : Untouched s (runDot s) :=
  ⟨rfl, rfl, rfl, rfl, rfl, rfl, rfl, rfl, runDot_pal s, runDot_registers s, runDot_ctrl s, runDot_mask s, runDot_t s,
    runDot_x s, runDot_wantVideo s, rfl, rfl, rfl, rfl, rfl, rfl, rfl, rfl, rfl⟩

theorem apuTick_untouched (s : State) : Untouched s (apuTick s) := by
  have h := apuTick_sameWritten s
  rw [apuTick_eq]
  exact ⟨rfl, rfl, rfl, rfl, rfl, rfl, rfl, rfl, rfl, rfl, rfl, rfl, rfl, rfl, rfl, h.pulse1, h.pulse2, h.triangle,
    h.noise, h.dmc, h.fcMode, h.fcInhibit, rfl, rfl⟩

/-- The address increment writes `v` alone. -/
theorem Ppu.bump_eq (rg : Region) (p : Ppu) : p.bump rg = { p with v := (p.bump rg).v } := by
  unfold Ppu.bump
  split <;> rfl

/-- The PPU registers a CPU read does not write. -/
theorem ppuRegRead_regs (n : Nat) (s : State) :
    (ppuRegRead n s).2.ctrl = s.ppu.ctrl ∧ (ppuRegRead n s).2.mask = s.ppu.mask ∧ (ppuRegRead n s).2.t = s.ppu.t ∧
    (ppuRegRead n s).2.x = s.ppu.x ∧ (ppuRegRead n s).2.pal = s.ppu.pal ∧ (ppuRegRead n s).2.oam = s.ppu.oam ∧
    (ppuRegRead n s).2.wantVideo = s.ppu.wantVideo ∧ (ppuRegRead n s).2.fbWork = s.ppu.fbWork ∧
    (ppuRegRead n s).2.scanline = s.ppu.scanline ∧ (ppuRegRead n s).2.dot = s.ppu.dot := by
  unfold ppuRegRead
  split
  · exact ⟨rfl, rfl, rfl, rfl, rfl, rfl, rfl, rfl, rfl, rfl⟩
  · exact ⟨rfl, rfl, rfl, rfl, rfl, rfl, rfl, rfl, rfl, rfl⟩
  · unfold ppuReadData
    dsimp only
    rw [Ppu.bump_eq]
    exact ⟨rfl, rfl, rfl, rfl, rfl, rfl, rfl, rfl, rfl, rfl⟩
  · exact ⟨rfl, rfl, rfl, rfl, rfl, rfl, rfl, rfl, rfl, rfl⟩

theorem ppuAfterRead_regs (a : Addr) (s : State) :
    (ppuAfterRead a s).ctrl = s.ppu.ctrl ∧ (ppuAfterRead a s).mask = s.ppu.mask ∧ (ppuAfterRead a s).t = s.ppu.t ∧
    (ppuAfterRead a s).x = s.ppu.x ∧ (ppuAfterRead a s).pal = s.ppu.pal ∧ (ppuAfterRead a s).oam = s.ppu.oam ∧
    (ppuAfterRead a s).wantVideo = s.ppu.wantVideo ∧ (ppuAfterRead a s).fbWork = s.ppu.fbWork ∧
    (ppuAfterRead a s).scanline = s.ppu.scanline ∧ (ppuAfterRead a s).dot = s.ppu.dot := by
  unfold ppuAfterRead
  split
  · exact ppuRegRead_regs _ _
  · exact ⟨rfl, rfl, rfl, rfl, rfl, rfl, rfl, rfl, rfl, rfl⟩

theorem apuAfterRead_sameWritten (a : Addr) (s : State) : Apu.SameWritten s.apu (apuAfterRead a s) := by
  unfold apuAfterRead
  split
  · exact ⟨rfl, rfl, rfl, rfl, rfl, rfl, rfl⟩
  · exact Apu.SameWritten.refl _

theorem inputAfterRead_ports (a : Addr) (s : State) :
    (inputAfterRead a s).strobe = s.input.strobe ∧ (inputAfterRead a s).latched = s.input.latched := by
  unfold inputAfterRead
  split
  · exact ⟨rfl, rfl⟩
  · split <;> exact ⟨rfl, rfl⟩

theorem busRead_untouched (a : Addr) (s : State) : Untouched s (busRead a s).2 := by
  have h := ppuAfterRead_regs a s
  have k := apuAfterRead_sameWritten a s
  have l := inputAfterRead_ports a s
  exact ⟨rfl, rfl, rfl, rfl, rfl, rfl, rfl, rfl, h.2.2.2.2.1, rfl, h.1, h.2.1, h.2.2.1, h.2.2.2.1, h.2.2.2.2.2.2.1,
    k.pulse1, k.pulse2, k.triangle, k.noise, k.dmc, k.fcMode, k.fcInhibit, l.1, l.2⟩

theorem ppuWriteOam_regs (rg : Region) (v : Byte) (p : Ppu) :
    (ppuWriteOam rg v p).ctrl = p.ctrl ∧ (ppuWriteOam rg v p).mask = p.mask ∧ (ppuWriteOam rg v p).t = p.t ∧
    (ppuWriteOam rg v p).x = p.x ∧ (ppuWriteOam rg v p).pal = p.pal ∧
    (ppuWriteOam rg v p).wantVideo = p.wantVideo := by
  unfold ppuWriteOam
  split <;> exact ⟨rfl, rfl, rfl, rfl, rfl, rfl⟩

/-- The DMA engine's write to OAMDATA. -/
theorem oamWrite_untouched (v : Byte) (s : State) : Untouched s (busWrite 0x2004 v s) := by
  have h := ppuWriteOam_regs s.image.region v { s.ppu with ioLatch := v }
  exact ⟨rfl, rfl, rfl, rfl, rfl, rfl, rfl, rfl, h.2.2.2.2.1, rfl, h.1, h.2.1, h.2.2.1, h.2.2.2.1, h.2.2.2.2.2,
    rfl, rfl, rfl, rfl, rfl, rfl, rfl, rfl, rfl⟩

theorem updates_untouched (s : State) (n : Nat) (d h j : Bool) (c : Cpu) (l : List Diagnostic) :
    Untouched s { s with cpu := c, diag := l, hung := h, jamSeen := j,
                         bus := { s.bus with stall := n, oamdmaPending := d } } :=
  ⟨rfl, rfl, rfl, rfl, rfl, rfl, rfl, rfl, rfl, rfl, rfl, rfl, rfl, rfl, rfl, rfl, rfl, rfl, rfl, rfl, rfl, rfl, rfl, rfl⟩

/-- Nothing that a read does, or an instruction that stores nothing, touches what `Untouched` names. -/
theorem untouched_stable (s : State) : ReadStable (Untouched s) where
  dot t h := h.trans (runDot_untouched t)
  tick t h := h.trans (apuTick_untouched t)
  access a t h := h.trans (busRead_untouched a t)
  finish _ h := h.trans ⟨rfl, rfl, rfl, rfl, rfl, rfl, rfl, rfl, rfl, rfl, rfl, rfl, rfl, rfl, rfl, rfl, rfl, rfl, rfl, rfl,
    rfl, rfl, rfl, rfl⟩
  stall t _ h := h.trans (updates_untouched t _ _ _ _ _ _)
  dmaStart t h := h.trans (updates_untouched t _ false _ _ _ _)
  hang t h := h.trans (updates_untouched t _ _ true _ _ _)
  dma := Or.inr fun v t h => h.trans (oamWrite_untouched v t)
  cpu t c h := h.trans (updates_untouched t _ _ _ _ c _)
  log t _ h := h.trans (updates_untouched t _ _ _ _ _ _)
  jam t h := h.trans (updates_untouched t _ _ _ true _ _)

theorem memRead_untouched (a : Addr) (s : State) : Untouched s (memRead a s).2 :=
  (untouched_stable s).memRead a (Untouched.refl s)

theorem beginCycle_untouched (s : State) : Untouched s (beginCycle s) :=
  (untouched_stable s).beginCycle (Untouched.refl s)

theorem preRead_untouched (s : State) : Untouched s (preRead s) := (untouched_stable s).preRead (Untouched.refl s)

/-! The CPU's registers. -/

/-- No bus operation writes a CPU register. -/
theorem cpu_stable (c : Cpu) : BusStable (fun s => s.cpu = c) where
  dot _ h := h
  tick s h := by rw [apuTick_eq]; exact h
  access _ _ h := h
  finish _ h := h
  stall _ _ h := h
  dmaStart _ h := h
  hang _ h := h
  dma := Or.inr fun _ _ h => h

@[simp] theorem memRead_cpu (a : Addr) (s : State) : (memRead a s).2.cpu = s.cpu := (cpu_stable s.cpu).memRead a rfl

@[simp] theorem dummyRead_cpu (a : Addr) (s : State) : (dummyRead a s).cpu = s.cpu := memRead_cpu a s

@[simp] theorem memWrite_cpu (a : Addr) (v : Byte) (s : State) : (memWrite a v s).cpu = s.cpu :=
  (cpu_stable s.cpu).memWrite (fun _ _ h => h) v rfl

@[simp] theorem preRead_cpu (s : State) : (preRead s).cpu = s.cpu := (cpu_stable s.cpu).preRead rfl

@[simp] theorem readWord_cpu (lo hi : Addr) (s : State) : (readWord lo hi s).2.cpu = s.cpu :=
  (cpu_stable s.cpu).readWord lo hi rfl

@[simp] theorem zpPointer_cpu (p : Byte) (s : State) : (zpPointer p s).2.cpu = s.cpu := readWord_cpu _ _ s

@[simp] theorem indexed_cpu (cls : AccClass) (base : Addr) (i : Byte) (s : State) :
    (indexed cls base i s).2.cpu = s.cpu :=
  (cpu_stable s.cpu).indexed cls base i rfl

@[simp] theorem effAddr_cpu (cls : AccClass) (m : MemOperand) (s : State) : (effAddr cls m s).2.cpu = s.cpu :=
  (cpu_stable s.cpu).effAddr cls m rfl

@[simp] theorem readSrc_cpu (x : Src) (s : State) : (readSrc x s).2.cpu = s.cpu := (cpu_stable s.cpu).readSrc x rfl

@[simp] theorem fetch_cpu (s : State) : (fetch s).2.cpu = { s.cpu with pc := s.cpu.pc + 1 } := by
  simp [fetch]

@[simp] theorem push_cpu (v : Byte) (s : State) : (push v s).cpu = { s.cpu with s := s.cpu.s - 1 } := by
  simp [push]

@[simp] theorem pull_cpu (s : State) : (pull s).2.cpu = { s.cpu with s := s.cpu.s + 1 } := by
  simp [pull]

@[simp] theorem dummyStack_cpu (s : State) : (dummyStack s).cpu = s.cpu := dummyRead_cpu _ s

@[simp] theorem implied_cpu (f : Cpu → Cpu) (s : State) : (implied f s).cpu = f s.cpu := by
  simp [implied]

@[simp] theorem readOperand_cpu (f : Byte → Cpu → Cpu) (x : Src) (s : State) :
    (readOperand f x s).cpu = f (readSrc x s).1 s.cpu := by
  simp [readOperand]

@[simp] theorem storeOperand_cpu (v : Cpu → Byte) (m : MemOperand) (s : State) : (storeOperand v m s).cpu = s.cpu := by
  simp [storeOperand]

@[simp] theorem storeHigh_cpu (reg : Byte) (base : Addr) (i : Byte) (s : State) :
    (storeHigh reg base i s).cpu = s.cpu := by
  simp [storeHigh]

@[simp] theorem modifyOperand_cpu (f : Byte → Cpu → Byte × Cpu) (m : MemOperand) (s : State) :
    (modifyOperand f m s).cpu = (f (oldByte m s) s.cpu).2 := by
  unfold modifyOperand oldByte
  dsimp only
  rw [memWrite_cpu]
  dsimp only
  rw [memWrite_cpu, memRead_cpu, effAddr_cpu]

@[simp] theorem modifyAcc_cpu (f : Byte → Cpu → Byte × Cpu) (s : State) :
    (modifyAcc f s).cpu = { (f s.cpu.a s.cpu).2 with a := (f s.cpu.a s.cpu).1 } := by
  simp [modifyAcc]

@[simp] theorem branch_cpu (c : Bool) (o : Byte) (s : State) :
    (branch c o s).cpu = if c then { s.cpu with pc := branchTarget s.cpu.pc o } else s.cpu := by
  unfold branch
  split
  · dsimp only
    split <;> simp
  · rfl

@[simp] theorem nopAccesses_cpu (f : Form) (s : State) : (nopAccesses f s).cpu = s.cpu := by
  cases f <;> simp [nopAccesses]

/-! Values of reads of plain memory. -/

theorem mmc3PrgBank_counters (im : Image) (r : Mmc3) (c : Byte) (j m : Bool) (l k : Nat) :
    mmc3PrgBank im { r with irqCounter := c, irqReload := j, mapperIrq := m, a12Low := l } k = mmc3PrgBank im r k :=
  rfl

theorem prgOffset_registers (im : Image) (m : Mapper) (a : Nat) : prgOffset im m.registers a = prgOffset im m a := by
  cases m with
  | nrom => rfl
  | unrom _ => rfl
  | mmc1 _ => rfl
  | mmc3 r =>
    exact congrArg (fun z => (z % im.nb8) * 0x2000 + a % 0x2000)
      (mmc3PrgBank_counters im r 0 false false 0 ((a - 0x8000) / 0x2000))

theorem prgRamEnabled_registers (m : Mapper) : prgRamEnabled m.registers = prgRamEnabled m := by
  cases m <;> rfl

theorem prgRamWritable_registers (m : Mapper) : prgRamWritable m.registers = prgRamWritable m := by
  cases m <;> rfl

theorem Untouched.prgByte {s t : State} (h : Untouched s t) (a : Nat) :
    Machine.prgByte t.image t.mapper a = Machine.prgByte s.image s.mapper a := by
  unfold Machine.prgByte
  rw [← prgOffset_registers, h.mapper, prgOffset_registers, h.image]

theorem Untouched.placeable {s t : State} (h : Untouched s t) (a : Addr) : placeable t a = placeable s a := by
  unfold Machine.placeable
  rw [← prgRamEnabled_registers, h.mapper, prgRamEnabled_registers]

theorem Untouched.memoryByte {s t : State} (h : Untouched s t) (a : Addr) : t.memoryByte a = s.memoryByte a := by
  unfold State.memoryByte
  rw [h.ram, h.prgRam, h.prgByte]

/-- A read of plain memory returns the byte there (spec/20_memory.md R76; spec/61_bus_mapper.md R380, R381). -/
theorem busValue_placeable {s : State} {a : Addr} (h : placeable s a = true) : busValue a s = s.memoryByte a := by
  unfold placeable at h
  unfold busValue State.memoryByte
  dsimp only
  have ha := a.isLt
  by_cases h1 : a.toNat < 0x2000
  · rw [if_pos h1, if_pos h1]
  · simp only [h1, decide_false, Bool.false_or, Bool.or_eq_true, Bool.and_eq_true, decide_eq_true_eq] at h
    rcases h with ⟨⟨h2, h3⟩, h4⟩ | h2
    · rw [if_neg h1, if_neg h1, if_neg (by omega), if_neg (by omega), if_neg (by omega), if_neg (by omega),
        if_neg (by omega), if_pos h3, if_pos h3, if_pos h4]
    · rw [if_neg h1, if_neg h1, if_neg (by omega), if_neg (by omega), if_neg (by omega), if_neg (by omega),
        if_neg (by omega), if_neg (by omega), if_neg (by omega)]

theorem memRead_value {s : State} {a : Addr} (h : placeable s a = true) : (memRead a s).1 = s.memoryByte a := by
  have hu : Untouched s (beginCycle (preRead s)) := (preRead_untouched s).trans (beginCycle_untouched _)
  show busValue a (beginCycle (preRead s)) = s.memoryByte a
  rw [busValue_placeable (by rw [hu.placeable, h]), hu.memoryByte]

theorem readWord_value {s : State} {lo hi : Addr} (hl : placeable s lo = true) (hh : placeable s hi = true) :
    (readWord lo hi s).1 = s.memoryWord lo hi := by
  have hu := memRead_untouched lo s
  show word (memRead hi (memRead lo s).2).1 (memRead lo s).1 = _
  rw [memRead_value hl, memRead_value (by rw [hu.placeable, hh]), hu.memoryByte]
  rfl

theorem fetch_value {s : State} (h : placeable s s.cpu.pc = true) : (fetch s).1 = s.memoryByte s.cpu.pc :=
  memRead_value h

theorem stackAddr_toNat (p : Byte) : (stackAddr p).toNat = 0x100 + p.toNat := by
  have h := p.isLt
  have h2 : (stackAddr p).toNat = (0x01 : Byte).toNat <<< 8 ||| p.toNat := BitVec.toNat_append ..
  rw [h2]
  exact (Nat.two_pow_add_eq_or_of_lt h 1).symm

theorem zeroPage_toNat (p : Byte) : (zeroPage p).toNat = p.toNat := by
  have h2 : (zeroPage p).toNat = (0x00 : Byte).toNat <<< 8 ||| p.toNat := BitVec.toNat_append ..
  rw [h2]
  simp

theorem placeable_of_ram {s : State} {a : Addr} (h : a.toNat < 0x2000) : placeable s a = true := by
  simp [placeable, h]

theorem placeable_of_rom {s : State} {a : Addr} (h : 0x8000 ≤ a.toNat) : placeable s a = true := by
  simp [placeable, h]

theorem placeable_stack (s : State) (p : Byte) : placeable s (stackAddr p) = true := by
  have h := p.isLt
  exact placeable_of_ram (by rw [stackAddr_toNat]; omega)

theorem placeable_zeroPage (s : State) (p : Byte) : placeable s (zeroPage p) = true := by
  have h := p.isLt
  exact placeable_of_ram (by rw [zeroPage_toNat]; omega)

/-- The byte of work RAM at a stack address. -/
theorem memoryByte_stack (s : State) (p : Byte) : s.memoryByte (stackAddr p) = s.ram.read (0x100 + p.toNat) := by
  have h := p.isLt
  unfold State.memoryByte
  rw [if_pos (by rw [stackAddr_toNat]; omega), stackAddr_toNat, Nat.mod_eq_of_lt (by omega)]

/-- A pull returns the byte above the stack pointer (spec/00_scope.md R16). -/
theorem pull_value (s : State) : (pull s).1 = s.ram.read (0x100 + (s.cpu.s + 1).toNat) := by
  have h := memRead_value (placeable_stack (s.setS (s.cpu.s + 1)) (s.cpu.s + 1))
  rw [memoryByte_stack] at h
  exact h

theorem pull_untouched (s : State) : Untouched s (pull s).2 := (untouched_stable s).pull (Untouched.refl s)

theorem dummyRead_untouched (a : Addr) (s : State) : Untouched s (dummyRead a s) := memRead_untouched a s

theorem dummyStack_untouched (s : State) : Untouched s (dummyStack s) := memRead_untouched _ s

theorem readWord_untouched (lo hi : Addr) (s : State) : Untouched s (readWord lo hi s).2 :=
  (untouched_stable s).readWord lo hi (Untouched.refl s)

theorem fetch_untouched (s : State) : Untouched s (fetch s).2 := (untouched_stable s).fetch (Untouched.refl s)

theorem effAddr_untouched (cls : AccClass) (m : MemOperand) (s : State) : Untouched s (effAddr cls m s).2 :=
  (untouched_stable s).effAddr cls m (Untouched.refl s)

/-! Sprite memory while no OAM DMA is pending. -/

/-- With no OAM DMA pending, nothing that a read does touches sprite memory. -/
theorem oam_stable (o : Mem 8) : ReadStable (fun s => s.ppu.oam = o ∧ s.bus.oamdmaPending = false) where
  dot s h := ⟨(runDot_oam s).trans h.1, h.2⟩
  tick s h := by rw [apuTick_eq]; exact h
  access a s h := ⟨(ppuAfterRead_regs a s).2.2.2.2.2.1.trans h.1, h.2⟩
  finish _ h := h
  stall _ _ h := h
  dmaStart _ h := ⟨h.1, rfl⟩
  hang _ h := h
  dma := Or.inl fun _ h => h.2
  cpu _ _ h := h
  log _ _ h := h
  jam _ h := h

theorem memRead_oam (a : Addr) {s : State} (h : s.bus.oamdmaPending = false) : OamUntouched s (memRead a s).2 :=
  (oam_stable s.ppu.oam).memRead a ⟨rfl, h⟩

/-! What reads leave alone, sprite memory included. -/

/-- `t` comes from `s` by reads: `Untouched`, and sprite memory too while no OAM DMA is pending. -/
structure ReadOnly (s t : State) : Prop extends Untouched s t where
  oam : s.bus.oamdmaPending = false → OamUntouched s t

theorem ReadOnly.refl (s : State) : ReadOnly s s := ⟨Untouched.refl s, fun h => ⟨rfl, h⟩⟩

theorem ReadOnly.trans {s t u : State} (h : ReadOnly s t) (k : ReadOnly t u) : ReadOnly s u :=
  ⟨h.toUntouched.trans k.toUntouched, fun hs => ⟨(k.oam (h.oam hs).2).1.trans (h.oam hs).1, (k.oam (h.oam hs).2).2⟩⟩

theorem readOnly_stable (s : State) : ReadStable (ReadOnly s) where
  dot t h := ⟨(untouched_stable s).dot t h.toUntouched, fun hs => (oam_stable s.ppu.oam).dot t (h.oam hs)⟩
  tick t h := ⟨(untouched_stable s).tick t h.toUntouched, fun hs => (oam_stable s.ppu.oam).tick t (h.oam hs)⟩
  access a t h := ⟨(untouched_stable s).access a t h.toUntouched, fun hs => (oam_stable s.ppu.oam).access a t (h.oam hs)⟩
  finish t h := ⟨(untouched_stable s).finish t h.toUntouched, fun hs => (oam_stable s.ppu.oam).finish t (h.oam hs)⟩
  stall t n h := ⟨(untouched_stable s).stall t n h.toUntouched, fun hs => (oam_stable s.ppu.oam).stall t n (h.oam hs)⟩
  dmaStart t h := ⟨(untouched_stable s).dmaStart t h.toUntouched, fun hs => (oam_stable s.ppu.oam).dmaStart t (h.oam hs)⟩
  hang t h := ⟨(untouched_stable s).hang t h.toUntouched, fun hs => (oam_stable s.ppu.oam).hang t (h.oam hs)⟩
  dma := by
    cases hs : s.bus.oamdmaPending with
    | false => exact Or.inl fun t h => (h.oam hs).2
    | true => exact Or.inr fun v t h => ⟨h.toUntouched.trans (oamWrite_untouched v t), fun hf => by rw [hs] at hf; cases hf⟩
  cpu t c h := ⟨(untouched_stable s).cpu t c h.toUntouched, fun hs => (oam_stable s.ppu.oam).cpu t c (h.oam hs)⟩
  log t d h := ⟨(untouched_stable s).log t d h.toUntouched, fun hs => (oam_stable s.ppu.oam).log t d (h.oam hs)⟩
  jam t h := ⟨(untouched_stable s).jam t h.toUntouched, fun hs => (oam_stable s.ppu.oam).jam t (h.oam hs)⟩

/-! Writes. -/

theorem beginCycle_ram (s : State) : (beginCycle s).ram = s.ram := (beginCycle_untouched s).ram

/-- Work RAM after a CPU write (spec/20_memory.md R76). -/
theorem memWrite_ram (a : Addr) (v : Byte) (s : State) : (memWrite a v s).ram = ramAfterWrite a v s := by
  show ramAfterWrite a v (beginCycle s) = ramAfterWrite a v s
  unfold ramAfterWrite
  rw [(beginCycle_untouched s).ram]

/-- PRG-RAM after a CPU write (spec/61_bus_mapper.md R381). -/
theorem memWrite_prgRam (a : Addr) (v : Byte) (s : State) : (memWrite a v s).prgRam = prgRamAfterWrite a v s := by
  show prgRamAfterWrite a v (beginCycle s) = prgRamAfterWrite a v s
  unfold prgRamAfterWrite
  rw [← prgRamWritable_registers, (beginCycle_untouched s).mapper, prgRamWritable_registers,
    (beginCycle_untouched s).prgRam]

theorem memWrite_image (a : Addr) (v : Byte) (s : State) : (memWrite a v s).image = s.image :=
  (beginCycle_untouched s).image

theorem memWrite_cfg (a : Addr) (v : Byte) (s : State) : (memWrite a v s).cfg = s.cfg :=
  (beginCycle_untouched s).cfg

theorem stackIndex (p : Byte) : (stackAddr p).toNat % 2048 = 0x100 + p.toNat := by
  have h := p.isLt
  rw [stackAddr_toNat, Nat.mod_eq_of_lt (by omega)]

/-- A push writes the byte at the stack pointer (spec/00_scope.md R16). -/
theorem push_ram (v : Byte) (s : State) : (push v s).ram = s.ram.write (0x100 + s.cpu.s.toNat) v := by
  show (memWrite (stackAddr s.cpu.s) v s).ram = _
  have h := s.cpu.s.isLt
  rw [memWrite_ram]
  unfold ramAfterWrite
  rw [if_pos (by rw [stackAddr_toNat]; omega), stackIndex]

/-- A write to work RAM changes nothing that `Untouched` names but the byte written. -/
theorem ramWrite_untouched (a : Addr) (v : Byte) (s : State) (h : a.toNat < 0x2000) :
    Untouched { s with ram := s.ram.write (a.toNat % 2048) v } (memWrite a v s) := by
  have hb := beginCycle_untouched s
  have h1 : ¬(0x2000 ≤ a.toNat && a.toNat < 0x4000) = true := by simp; omega
  have h2 : ¬(0x4000 ≤ a.toNat && a.toNat < 0x4018) = true := by simp; omega
  have h3 : a.toNat ≠ 0x4016 := by omega
  have h4 : ¬ 0x8000 ≤ a.toNat := by omega
  have h5 : ¬(0x6000 ≤ a.toNat && a.toNat < 0x8000 && prgRamWritable (beginCycle s).mapper) = true := by
    simp; omega
  have hp : (memWrite a v s).ppu = (beginCycle s).ppu := if_neg h1
  have ha : (memWrite a v s).apu = (beginCycle s).apu := if_neg h2
  have hi : (memWrite a v s).input = (beginCycle s).input := if_neg h3
  have hm : (memWrite a v s).mapper = (beginCycle s).mapper := if_neg h4
  have hr : (memWrite a v s).ram = s.ram.write (a.toNat % 2048) v := by
    rw [memWrite_ram]; exact if_pos h
  have hq : (memWrite a v s).prgRam = (beginCycle s).prgRam := if_neg h5
  have hc : (memWrite a v s).chrRam = (beginCycle s).chrRam := if_neg h1
  have hn : (memWrite a v s).ciram = (beginCycle s).ciram := if_neg h1
  exact ⟨hb.cfg, hb.image, hb.power, hb.resetPending, hr, hq.trans hb.prgRam, hc.trans hb.chrRam, hn.trans hb.ciram,
    (congrArg Ppu.pal hp).trans hb.pal, (congrArg Mapper.registers hm).trans hb.mapper,
    (congrArg Ppu.ctrl hp).trans hb.ctrl, (congrArg Ppu.mask hp).trans hb.mask, (congrArg Ppu.t hp).trans hb.scrollT,
    (congrArg Ppu.x hp).trans hb.scrollX, (congrArg Ppu.wantVideo hp).trans hb.wantVideo,
    (congrArg (·.pulse1.written) ha).trans hb.pulse1, (congrArg (·.pulse2.written) ha).trans hb.pulse2,
    (congrArg (·.triangle.written) ha).trans hb.triangle, (congrArg (·.noise.written) ha).trans hb.noise,
    (congrArg (·.dmc.written) ha).trans hb.dmc, (congrArg Apu.fcMode ha).trans hb.fcMode,
    (congrArg Apu.fcInhibit ha).trans hb.fcInhibit, (congrArg Input.strobe hi).trans hb.strobe,
    (congrArg Input.latched hi).trans hb.latched⟩

theorem push_untouched (v : Byte) (s : State) :
    Untouched { s with ram := s.ram.write (0x100 + s.cpu.s.toNat) v } (push v s) := by
  have h := ramWrite_untouched (stackAddr s.cpu.s) v s (by
    have := s.cpu.s.isLt
    rw [stackAddr_toNat]; omega)
  rw [stackIndex] at h
  exact h.trans (updates_untouched _ _ _ _ _ _ _)

/-! The frame of a store. -/

theorem CellFrame.refl (ea : Addr) (s : State) : CellFrame ea s s :=
  ⟨rfl, rfl, rfl, rfl, fun _ _ _ => rfl, fun _ _ _ _ => rfl, fun _ => ⟨rfl, rfl, rfl⟩, fun _ => rfl, fun _ => rfl, rfl,
    fun _ => ⟨rfl, rfl, rfl, rfl⟩, fun _ => ⟨rfl, rfl, rfl, rfl, rfl, rfl, rfl⟩⟩

theorem CellFrame.trans {ea : Addr} {s t u : State} (h : CellFrame ea s t) (k : CellFrame ea t u) :
    CellFrame ea s u where
  cfg := k.cfg.trans h.cfg
  image := k.image.trans h.image
  power := k.power.trans h.power
  resetPending := k.resetPending.trans h.resetPending
  ram b hb hn := (k.ram b hb hn).trans (h.ram b hb hn)
  prgRam b h1 h2 h3 := (k.prgRam b h1 h2 h3).trans (h.prgRam b h1 h2 h3)
  video hv := ⟨(k.video hv).1.trans (h.video hv).1, (k.video hv).2.1.trans (h.video hv).2.1,
    (k.video hv).2.2.trans (h.video hv).2.2⟩
  mapper hm := (k.mapper hm).trans (h.mapper hm)
  ports hp := (k.ports hp).trans (h.ports hp)
  latched := k.latched.trans h.latched
  ppu hv := ⟨(k.ppu hv).1.trans (h.ppu hv).1, (k.ppu hv).2.1.trans (h.ppu hv).2.1,
    (k.ppu hv).2.2.1.trans (h.ppu hv).2.2.1, (k.ppu hv).2.2.2.trans (h.ppu hv).2.2.2⟩
  apu ha := ⟨(k.apu ha).1.trans (h.apu ha).1, (k.apu ha).2.1.trans (h.apu ha).2.1,
    (k.apu ha).2.2.1.trans (h.apu ha).2.2.1, (k.apu ha).2.2.2.1.trans (h.apu ha).2.2.2.1,
    (k.apu ha).2.2.2.2.1.trans (h.apu ha).2.2.2.2.1, (k.apu ha).2.2.2.2.2.1.trans (h.apu ha).2.2.2.2.2.1,
    (k.apu ha).2.2.2.2.2.2.trans (h.apu ha).2.2.2.2.2.2⟩

theorem Untouched.cellFrame {s t : State} (h : Untouched s t) (ea : Addr) : CellFrame ea s t :=
  ⟨h.cfg, h.image, h.power, h.resetPending, fun _ _ _ => by rw [h.ram], fun _ _ _ _ => by rw [h.prgRam],
    fun _ => ⟨h.chrRam, h.ciram, h.pal⟩, fun _ => h.mapper, fun _ => h.strobe, h.latched,
    fun _ => ⟨h.ctrl, h.mask, h.scrollT, h.scrollX⟩,
    fun _ => ⟨h.pulse1, h.pulse2, h.triangle, h.noise, h.dmc, h.fcMode, h.fcInhibit⟩⟩

theorem busWrite_cellFrame (ea : Addr) (v : Byte) (s : State) : CellFrame ea s (busWrite ea v s) where
  cfg := rfl
  image := rfl
  power := rfl
  resetPending := rfl
  ram b hb hn := by
    show (ramAfterWrite ea v s).read _ = _
    unfold ramAfterWrite
    split
    · rename_i he
      exact Mem.read_write_other _ _ (fun h => hn ⟨he, h⟩)
    · rfl
  prgRam b h1 h2 h3 := by
    show (prgRamAfterWrite ea v s).read _ = _
    unfold prgRamAfterWrite
    split
    · rename_i he
      simp only [Bool.and_eq_true, decide_eq_true_eq] at he
      refine Mem.read_write_other _ _ (fun h => h3 (BitVec.eq_of_toNat_eq ?_))
      omega
    · rfl
  video hv := by
    have h1 : ¬(0x2000 ≤ ea.toNat && ea.toNat < 0x4000) = true := by simpa using hv
    exact ⟨if_neg h1, if_neg h1, congrArg Ppu.pal (if_neg h1)⟩
  mapper hm := congrArg Mapper.registers (if_neg (by omega))
  ports hp := congrArg Input.strobe (if_neg hp)
  latched := by
    show (inputAfterWrite ea v s).latched = _
    unfold inputAfterWrite
    split <;> rfl
  ppu hv := by
    have h1 : ¬(0x2000 ≤ ea.toNat && ea.toNat < 0x4000) = true := by simpa using hv
    have h : ppuAfterWrite ea v s = s.ppu := if_neg h1
    exact ⟨congrArg Ppu.ctrl h, congrArg Ppu.mask h, congrArg Ppu.t h, congrArg Ppu.x h⟩
  apu ha := by
    have h1 : ¬(0x4000 ≤ ea.toNat && ea.toNat < 0x4018) = true := by simpa using ha
    have h : apuAfterWrite ea v s = s.apu := if_neg h1
    exact ⟨congrArg (·.pulse1.written) h, congrArg (·.pulse2.written) h, congrArg (·.triangle.written) h,
      congrArg (·.noise.written) h, congrArg (·.dmc.written) h, congrArg Apu.fcMode h, congrArg Apu.fcInhibit h⟩

/-- The frame of a store to `ea`, sprite memory apart, is kept by reads and by further writes to `ea`. -/
theorem cellFrame_stable (ea : Addr) (s : State) : ReadStable (CellFrame ea s) where
  dot t h := h.trans ((runDot_untouched t).cellFrame ea)
  tick t h := h.trans ((apuTick_untouched t).cellFrame ea)
  access a t h := h.trans ((busRead_untouched a t).cellFrame ea)
  finish t h := h.trans (((untouched_stable t).finish t (Untouched.refl t)).cellFrame ea)
  stall t n h := h.trans ((updates_untouched t n _ _ _ _ _).cellFrame ea)
  dmaStart t h := h.trans ((updates_untouched t _ false _ _ _ _).cellFrame ea)
  hang t h := h.trans ((updates_untouched t _ _ true _ _ _).cellFrame ea)
  dma := Or.inr fun v t h => h.trans ((oamWrite_untouched v t).cellFrame ea)
  cpu t c h := h.trans ((updates_untouched t _ _ _ _ c _).cellFrame ea)
  log t _ h := h.trans ((updates_untouched t _ _ _ _ _ _).cellFrame ea)
  jam t h := h.trans ((updates_untouched t _ _ _ true _ _).cellFrame ea)

theorem cellFrame_writeStable (ea : Addr) (s : State) : WriteStable (CellFrame ea s) ea :=
  fun v t h => h.trans (busWrite_cellFrame ea v t)

/-! Sprite memory under a write. -/

theorem Ppu.bump_oam (rg : Region) (p : Ppu) : (p.bump rg).oam = p.oam := by
  unfold Ppu.bump
  split <;> rfl

theorem ppuRegWrite_oam (rg : Region) {n : Nat} (h : n ≠ 4) (v : Byte) (p : Ppu) : (ppuRegWrite rg n v p).oam = p.oam := by
  unfold ppuRegWrite
  split
  · rfl
  · rfl
  · rfl
  · exact absurd rfl h
  · unfold ppuWriteScroll
    dsimp only
    split <;> rfl
  · unfold ppuWriteAddr
    dsimp only
    split <;> rfl
  · rw [Ppu.bump_oam]
    split <;> rfl
  · rfl

/-- Only a write of OAMDATA changes sprite memory (spec/62_ppu.md R439); whether a DMA is pending changes only at 0x4014. -/
theorem memWrite_oam {a : Addr} (h : ¬isOamData a) (v : Byte) (s : State) : (memWrite a v s).ppu.oam = s.ppu.oam := by
  have hb : (beginCycle s).ppu.oam = s.ppu.oam := by
    have hd : ∀ n t, (runDots n t).ppu.oam = t.ppu.oam := by
      intro n
      induction n with
      | zero => exact fun _ => rfl
      | succ n ih => exact fun t => (ih _).trans (runDot_oam t)
    unfold beginCycle
    rw [apuTick_eq]
    exact hd _ _
  refine Eq.trans ?_ hb
  show (ppuAfterWrite a v (beginCycle s)).oam = _
  unfold ppuAfterWrite
  split
  · rename_i hw
    simp only [Bool.and_eq_true, decide_eq_true_eq] at hw
    exact ppuRegWrite_oam _ (fun he => h ⟨hw.1, hw.2, he⟩) v _
  · rfl

theorem StoreFrame.of_readOnly {s t : State} (h : ReadOnly s t) (ea : Addr) : StoreFrame ea s t :=
  ⟨h.toUntouched.cellFrame ea, fun hs _ => (h.oam hs).1⟩

/-- A further write to `ea` keeps the frame of a store to `ea`. -/
theorem StoreFrame.memWrite {ea : Addr} {s t : State} (h : StoreFrame ea s t) (v : Byte) : StoreFrame ea s (memWrite ea v t) :=
  ⟨(cellFrame_stable ea s).toBusStable.memWrite (cellFrame_writeStable ea s) v h.toCellFrame,
    fun hs ho => (memWrite_oam ho v t).trans (h.oam hs ho)⟩

theorem StoreFrame.cpu {ea : Addr} {s t : State} (h : StoreFrame ea s t) (c : Cpu) : StoreFrame ea s { t with cpu := c } :=
  ⟨(cellFrame_stable ea s).cpu t c h.toCellFrame, h.oam⟩

end Sys2Proof.Machine
end

