-- ==== Sys2Proof/Laws/Cycles.lean ====
section
/-! SUPPORT. How many CPU cycles the bus operations take when nothing steals one, and what the DMC reader leaves alone. -/

namespace Sys2Proof.Machine

/-! The DMC channel and the frame counter. -/

theorem Apu.quarter_dmc (a : Apu) : a.quarter.dmc = a.dmc := rfl

theorem Apu.half_dmc (a : Apu) : a.half.dmc = a.dmc := rfl

theorem Apu.delayedReset_dmc (a : Apu) : a.delayedReset.dmc = a.dmc := by
  unfold Apu.delayedReset
  split
  · rfl
  · dsimp only
    split
    · split <;> rfl
    · rfl

theorem Apu.raiseFrameIrq_dmc (a : Apu) : a.raiseFrameIrq.dmc = a.dmc := by
  unfold Apu.raiseFrameIrq
  split <;> rfl

theorem Apu.frameStep_dmc (rg : Region) (a : Apu) : (a.frameStep rg).dmc = a.dmc := by
  unfold Apu.frameStep
  dsimp only
  split
  · rfl
  split
  · rfl
  split
  · split
    · rfl
    · split <;> rfl
  · split
    · rw [Apu.raiseFrameIrq_dmc]
    · split
      · rw [Apu.raiseFrameIrq_dmc]
        rfl
      · split
        · exact Apu.raiseFrameIrq_dmc _
        · rfl

theorem Apu.tickFrame_dmc (rg : Region) (a : Apu) : (a.tickFrame rg).dmc = a.dmc :=
  (Apu.frameStep_dmc rg _).trans (Apu.delayedReset_dmc a)

theorem Apu.sample_dmc (rg : Region) (cfg : Params) (a : Apu) : (a.sample rg cfg).dmc = a.dmc := by
  unfold Apu.sample
  dsimp only
  split <;> rfl

theorem Dmc.output_remaining (d : Dmc) : d.output.remaining = d.remaining := by
  unfold Dmc.output
  dsimp only
  split
  · split <;> rfl
  · rfl

theorem Dmc.tick_remaining (rg : Region) (d : Dmc) : (d.tick rg).remaining = d.remaining := by
  unfold Dmc.tick
  split
  · exact Dmc.output_remaining d
  · rfl

theorem Apu.tickTimers_remaining (rg : Region) (cyc : Nat) (a : Apu) :
    (a.tickTimers rg cyc).dmc.remaining = a.dmc.remaining := by
  unfold Apu.tickTimers
  dsimp only
  split <;> exact Dmc.tick_remaining rg a.dmc

/-- With no DMC byte due the memory reader does nothing. -/
theorem dmcFetch_of_idle {s : State} (h : s.apu.dmc.remaining = 0) : dmcFetch s = s := by
  unfold dmcFetch Dmc.wantsByte
  rw [h]
  simp

/-- A tick with no DMC byte due changes the APU alone, and leaves none due. -/
theorem apuTick_of_idle {s : State} (h : s.apu.dmc.remaining = 0) :
    (apuTick s).bus = s.bus ∧ (apuTick s).apu.dmc.remaining = 0 := by
  have hd : ({ s with apu := s.apu.tickFrame s.image.region } : State).apu.dmc.remaining = 0 := by
    rw [← h]
    exact congrArg Dmc.remaining (Apu.tickFrame_dmc s.image.region s.apu)
  unfold apuTick
  dsimp only
  rw [dmcFetch_of_idle hd]
  refine ⟨rfl, ?_⟩
  rw [Apu.sample_dmc, Apu.tickTimers_remaining]
  exact hd

theorem runDots_bus (n : Nat) : ∀ s : State, (runDots n s).bus = s.bus ∧ (runDots n s).apu = s.apu := by
  induction n with
  | zero => exact fun s => ⟨rfl, rfl⟩
  | succ n ih => exact fun s => ih (runDot s)

/-- The beginning of a cycle with no DMC byte due leaves the CPU's hidden state alone. -/
theorem beginCycle_of_idle {s : State} (h : s.apu.dmc.remaining = 0) :
    (beginCycle s).bus = s.bus ∧ (beginCycle s).apu.dmc.remaining = 0 := by
  have hr := runDots_bus (dotsAt s.image.region s.bus.mclk) s
  have ht := apuTick_of_idle (s := runDots (dotsAt s.image.region s.bus.mclk) s) (by rw [hr.2, h])
  exact ⟨ht.1.trans hr.1, ht.2⟩

/-- The beginning of a cycle never advances the counters. -/
theorem beginCycle_counters (s : State) :
    (beginCycle s).bus.cyc = s.bus.cyc ∧ (beginCycle s).bus.mclk = s.bus.mclk ∧
    (beginCycle s).bus.oamdmaPending = s.bus.oamdmaPending := by
  have hr := (runDots_bus (dotsAt s.image.region s.bus.mclk) s).1
  unfold beginCycle
  rw [apuTick_eq]
  have h1 := congrArg Bus.cyc hr
  have h2 := congrArg Bus.mclk hr
  have h3 := congrArg Bus.oamdmaPending hr
  exact ⟨h1, h2, h3⟩

/-! Reads and writes. -/

/-- `t` comes `n` cycles after `s`, and nothing is due in it either. -/
structure Spent (n : Nat) (s t : State) : Prop where
  cyc : t.bus.cyc = s.bus.cyc + n
  mclk : t.bus.mclk = s.bus.mclk + n * s.image.region.cpuDiv
  image : t.image = s.image
  hung : t.hung = s.hung
  quiet : Quiet t

theorem Spent.trans {n k : Nat} {s t u : State} (h : Spent n s t) (g : Spent k t u) : Spent (n + k) s u where
  cyc := by rw [g.cyc, h.cyc, Nat.add_assoc]
  mclk := by rw [g.mclk, h.mclk, h.image, Nat.add_mul, Nat.add_assoc]
  image := g.image.trans h.image
  hung := g.hung.trans h.hung
  quiet := g.quiet

theorem Spent.refl {s : State} (h : Quiet s) : Spent 0 s s := ⟨rfl, by simp, rfl, rfl, h⟩

theorem Spent.cpu {n : Nat} {s t : State} (h : Spent n s t) (c : Cpu) : Spent n s { t with cpu := c } :=
  ⟨h.cyc, h.mclk, h.image, h.hung, ⟨h.quiet.stall, h.quiet.oamDma, h.quiet.dmc⟩⟩

theorem drainLoop_of_no_stall (n : Nat) {s : State} (h : s.bus.stall = 0) : drainLoop n s = s := by
  cases n <;> simp [drainLoop, h]

theorem drainStall_of_no_stall {s : State} (h : s.bus.stall = 0) : drainStall s = s := drainLoop_of_no_stall _ h

theorem preRead_of_quiet {s : State} (h : Quiet s) : preRead s = s := by
  rw [preRead_of_no_dma (by rw [drainStall_of_no_stall h.stall]; exact h.oamDma), drainStall_of_no_stall h.stall]

theorem apuAfterRead_dmc (a : Addr) (s : State) : (apuAfterRead a s).dmc = s.apu.dmc := by
  unfold apuAfterRead
  split <;> rfl

theorem beginCycle_hung (s : State) : (beginCycle s).hung = s.hung := by
  have hr : ∀ n, ∀ t : State, (runDots n t).hung = t.hung := by
    intro n
    induction n with
    | zero => exact fun _ => rfl
    | succ n ih => exact fun t => ih (runDot t)
  unfold beginCycle
  rw [apuTick_eq]
  exact hr _ _

/-- A read cycle is one cycle. -/
theorem readCycle_spent (a : Addr) {s : State} (h : Quiet s) : Spent 1 s (readCycle a s).2 where
  cyc := congrArg (· + 1) (beginCycle_counters s).1
  mclk := by
    show (beginCycle s).bus.mclk + (beginCycle s).image.region.cpuDiv = _
    rw [(beginCycle_counters s).2.1, (beginCycle_untouched s).image, Nat.one_mul]
  image := (beginCycle_untouched s).image
  hung := beginCycle_hung s
  quiet := by
    have hb := beginCycle_of_idle h.dmc
    refine ⟨?_, ?_, ?_⟩
    · exact (congrArg Bus.stall hb.1).trans h.stall
    · exact (congrArg Bus.oamdmaPending hb.1).trans h.oamDma
    · exact (congrArg Dmc.remaining (apuAfterRead_dmc a (beginCycle s))).trans hb.2

theorem memRead_eq_readCycle {s : State} (h : Quiet s) (a : Addr) : memRead a s = readCycle a s := by
  unfold memRead
  rw [preRead_of_quiet h]

theorem memRead_spent (a : Addr) {s : State} (h : Quiet s) : Spent 1 s (memRead a s).2 := by
  rw [memRead_eq_readCycle h]
  exact readCycle_spent a h

theorem dummyRead_spent (a : Addr) {s : State} (h : Quiet s) : Spent 1 s (dummyRead a s) := memRead_spent a h

theorem fetch_spent {s : State} (h : Quiet s) : Spent 1 s (fetch s).2 := (memRead_spent _ h).cpu _

theorem readWord_spent (lo hi : Addr) {s : State} (h : Quiet s) : Spent 2 s (readWord lo hi s).2 :=
  (memRead_spent lo h).trans (memRead_spent hi (memRead_spent lo h).quiet)

theorem pull_spent {s : State} (h : Quiet s) : Spent 1 s (pull s).2 :=
  ((Spent.refl h).cpu _).trans (memRead_spent _ ((Spent.refl h).cpu _).quiet)

/-- A write is one cycle, wherever it goes. -/
theorem memWrite_cyc (a : Addr) (v : Byte) (s : State) : (memWrite a v s).bus.cyc = s.bus.cyc + 1 :=
  congrArg (· + 1) (beginCycle_counters s).1

theorem memWrite_hung (a : Addr) (v : Byte) (s : State) : (memWrite a v s).hung = s.hung := beginCycle_hung s

theorem memWrite_mclk (a : Addr) (v : Byte) (s : State) :
    (memWrite a v s).bus.mclk = s.bus.mclk + s.image.region.cpuDiv := by
  show (beginCycle s).bus.mclk + (beginCycle s).image.region.cpuDiv = _
  rw [(beginCycle_counters s).2.1, (beginCycle_untouched s).image]

/-- A write to work RAM makes nothing due. -/
theorem ramWrite_spent (a : Addr) (v : Byte) {s : State} (h : Quiet s) (ha : a.toNat < 0x2000) :
    Spent 1 s (memWrite a v s) where
  cyc := memWrite_cyc a v s
  mclk := by rw [memWrite_mclk, Nat.one_mul]
  image := memWrite_image a v s
  hung := memWrite_hung a v s
  quiet := by
    have hb := beginCycle_of_idle h.dmc
    refine ⟨(congrArg Bus.stall hb.1).trans h.stall, ?_, ?_⟩
    · show ((beginCycle s).bus.oamdmaPending || a.toNat == 0x4014) = false
      rw [hb.1, h.oamDma, beq_eq_false_iff_ne.mpr (by omega)]
      rfl
    · show (apuAfterWrite a v (beginCycle s)).dmc.remaining = 0
      unfold apuAfterWrite
      rw [if_neg (by simp; omega)]
      exact hb.2

theorem push_spent (v : Byte) {s : State} (h : Quiet s) : Spent 1 s (push v s) := by
  have hl := s.cpu.s.isLt
  exact (ramWrite_spent _ v h (by rw [stackAddr_toNat]; omega)).cpu _

theorem indexed_spent (cls : AccClass) (base : Addr) (i : Byte) {s : State} (h : Quiet s) :
    Spent (if cls = .read && !crosses base i then 0 else 1) s (indexed cls base i s).2 := by
  unfold indexed
  dsimp only
  split
  · exact Spent.refl h
  · exact dummyRead_spent _ h

theorem takeException_spent (vec : Addr) (b : Bool) {s : State} (h : Quiet s) : Spent 5 s (takeException vec b s) := by
  have h1 := push_spent (hi8 s.cpu.pc) h
  have h2 := h1.trans (push_spent (lo8 (push (hi8 s.cpu.pc) s).cpu.pc) h1.quiet)
  have h3 := h2.trans (push_spent ((push (lo8 (push (hi8 s.cpu.pc) s).cpu.pc) (push (hi8 s.cpu.pc) s)).cpu.pByte b) h2.quiet)
  have h4 := h3.cpu { (push ((push (lo8 (push (hi8 s.cpu.pc) s).cpu.pc) (push (hi8 s.cpu.pc) s)).cpu.pByte b)
    (push (lo8 (push (hi8 s.cpu.pc) s).cpu.pc) (push (hi8 s.cpu.pc) s))).cpu with i := true }
  exact (h4.trans (readWord_spent vec (vec + 1) h4.quiet)).cpu _

end Sys2Proof.Machine
end

