-- ==== Sys2Proof/Laws/Decode.lean ====
section
/-! SUPPORT. The opcode map read at an instruction's own opcode, and at every opcode value. -/

namespace Sys2Proof

/-- At an instruction's opcode the map holds its constructor, and the operand bytes are the constructor's arguments. -/
theorem opcodeShape_opcode (i : Instr) :
    (opcodeShape i.opcode = .b0 i ∧ i.form.bytes = []) ∨
    (∃ f x, opcodeShape i.opcode = .b1 f ∧ f x = i ∧ i.form.bytes = [x]) ∨
    (∃ f x y, opcodeShape i.opcode = .b2 f ∧ f x y = i ∧ i.form.bytes = [x, y]) := by
  cases i <;> dsimp only [Instr.opcode] <;>
    first
    | exact Or.inl ⟨rfl, rfl⟩
    | exact Or.inr (Or.inl ⟨_, _, rfl, rfl, rfl⟩)
    | exact Or.inr (Or.inr ⟨_, _, _, rfl, rfl, rfl⟩)

/-- What the map holds at an opcode value: an instruction, or a constructor of one, with that opcode and those operand bytes. -/
def ShapeSound (op : Byte) : Prop :=
  (∃ i, opcodeShape op = .b0 i ∧ i.opcode = op ∧ i.form.bytes = []) ∨
  (∃ f, opcodeShape op = .b1 f ∧ ∀ x, (f x).opcode = op ∧ (f x).form.bytes = [x]) ∨
  (∃ f, opcodeShape op = .b2 f ∧ ∀ x y, (f x y).opcode = op ∧ (f x y).form.bytes = [x, y])

theorem shapeSound_row0 (n : Nat) (h : n < 16) : ShapeSound (BitVec.ofNat 8 (0x00 + n)) := by
  interval_cases n <;>
    first
    | exact Or.inl ⟨_, rfl, rfl, rfl⟩
    | exact Or.inr (Or.inl ⟨_, rfl, fun _ => ⟨rfl, rfl⟩⟩)
    | exact Or.inr (Or.inr ⟨_, rfl, fun _ _ => ⟨rfl, rfl⟩⟩)

theorem shapeSound_row1 (n : Nat) (h : n < 16) : ShapeSound (BitVec.ofNat 8 (0x10 + n)) := by
  interval_cases n <;>
    first
    | exact Or.inl ⟨_, rfl, rfl, rfl⟩
    | exact Or.inr (Or.inl ⟨_, rfl, fun _ => ⟨rfl, rfl⟩⟩)
    | exact Or.inr (Or.inr ⟨_, rfl, fun _ _ => ⟨rfl, rfl⟩⟩)

theorem shapeSound_row2 (n : Nat) (h : n < 16) : ShapeSound (BitVec.ofNat 8 (0x20 + n)) := by
  interval_cases n <;>
    first
    | exact Or.inl ⟨_, rfl, rfl, rfl⟩
    | exact Or.inr (Or.inl ⟨_, rfl, fun _ => ⟨rfl, rfl⟩⟩)
    | exact Or.inr (Or.inr ⟨_, rfl, fun _ _ => ⟨rfl, rfl⟩⟩)

theorem shapeSound_row3 (n : Nat) (h : n < 16) : ShapeSound (BitVec.ofNat 8 (0x30 + n)) := by
  interval_cases n <;>
    first
    | exact Or.inl ⟨_, rfl, rfl, rfl⟩
    | exact Or.inr (Or.inl ⟨_, rfl, fun _ => ⟨rfl, rfl⟩⟩)
    | exact Or.inr (Or.inr ⟨_, rfl, fun _ _ => ⟨rfl, rfl⟩⟩)

theorem shapeSound_row4 (n : Nat) (h : n < 16) : ShapeSound (BitVec.ofNat 8 (0x40 + n)) := by
  interval_cases n <;>
    first
    | exact Or.inl ⟨_, rfl, rfl, rfl⟩
    | exact Or.inr (Or.inl ⟨_, rfl, fun _ => ⟨rfl, rfl⟩⟩)
    | exact Or.inr (Or.inr ⟨_, rfl, fun _ _ => ⟨rfl, rfl⟩⟩)

theorem shapeSound_row5 (n : Nat) (h : n < 16) : ShapeSound (BitVec.ofNat 8 (0x50 + n)) := by
  interval_cases n <;>
    first
    | exact Or.inl ⟨_, rfl, rfl, rfl⟩
    | exact Or.inr (Or.inl ⟨_, rfl, fun _ => ⟨rfl, rfl⟩⟩)
    | exact Or.inr (Or.inr ⟨_, rfl, fun _ _ => ⟨rfl, rfl⟩⟩)

theorem shapeSound_row6 (n : Nat) (h : n < 16) : ShapeSound (BitVec.ofNat 8 (0x60 + n)) := by
  interval_cases n <;>
    first
    | exact Or.inl ⟨_, rfl, rfl, rfl⟩
    | exact Or.inr (Or.inl ⟨_, rfl, fun _ => ⟨rfl, rfl⟩⟩)
    | exact Or.inr (Or.inr ⟨_, rfl, fun _ _ => ⟨rfl, rfl⟩⟩)

theorem shapeSound_row7 (n : Nat) (h : n < 16) : ShapeSound (BitVec.ofNat 8 (0x70 + n)) := by
  interval_cases n <;>
    first
    | exact Or.inl ⟨_, rfl, rfl, rfl⟩
    | exact Or.inr (Or.inl ⟨_, rfl, fun _ => ⟨rfl, rfl⟩⟩)
    | exact Or.inr (Or.inr ⟨_, rfl, fun _ _ => ⟨rfl, rfl⟩⟩)

theorem shapeSound_row8 (n : Nat) (h : n < 16) : ShapeSound (BitVec.ofNat 8 (0x80 + n)) := by
  interval_cases n <;>
    first
    | exact Or.inl ⟨_, rfl, rfl, rfl⟩
    | exact Or.inr (Or.inl ⟨_, rfl, fun _ => ⟨rfl, rfl⟩⟩)
    | exact Or.inr (Or.inr ⟨_, rfl, fun _ _ => ⟨rfl, rfl⟩⟩)

theorem shapeSound_row9 (n : Nat) (h : n < 16) : ShapeSound (BitVec.ofNat 8 (0x90 + n)) := by
  interval_cases n <;>
    first
    | exact Or.inl ⟨_, rfl, rfl, rfl⟩
    | exact Or.inr (Or.inl ⟨_, rfl, fun _ => ⟨rfl, rfl⟩⟩)
    | exact Or.inr (Or.inr ⟨_, rfl, fun _ _ => ⟨rfl, rfl⟩⟩)

theorem shapeSound_rowA (n : Nat) (h : n < 16) : ShapeSound (BitVec.ofNat 8 (0xA0 + n)) := by
  interval_cases n <;>
    first
    | exact Or.inl ⟨_, rfl, rfl, rfl⟩
    | exact Or.inr (Or.inl ⟨_, rfl, fun _ => ⟨rfl, rfl⟩⟩)
    | exact Or.inr (Or.inr ⟨_, rfl, fun _ _ => ⟨rfl, rfl⟩⟩)

theorem shapeSound_rowB (n : Nat) (h : n < 16) : ShapeSound (BitVec.ofNat 8 (0xB0 + n)) := by
  interval_cases n <;>
    first
    | exact Or.inl ⟨_, rfl, rfl, rfl⟩
    | exact Or.inr (Or.inl ⟨_, rfl, fun _ => ⟨rfl, rfl⟩⟩)
    | exact Or.inr (Or.inr ⟨_, rfl, fun _ _ => ⟨rfl, rfl⟩⟩)

theorem shapeSound_rowC (n : Nat) (h : n < 16) : ShapeSound (BitVec.ofNat 8 (0xC0 + n)) := by
  interval_cases n <;>
    first
    | exact Or.inl ⟨_, rfl, rfl, rfl⟩
    | exact Or.inr (Or.inl ⟨_, rfl, fun _ => ⟨rfl, rfl⟩⟩)
    | exact Or.inr (Or.inr ⟨_, rfl, fun _ _ => ⟨rfl, rfl⟩⟩)

theorem shapeSound_rowD (n : Nat) (h : n < 16) : ShapeSound (BitVec.ofNat 8 (0xD0 + n)) := by
  interval_cases n <;>
    first
    | exact Or.inl ⟨_, rfl, rfl, rfl⟩
    | exact Or.inr (Or.inl ⟨_, rfl, fun _ => ⟨rfl, rfl⟩⟩)
    | exact Or.inr (Or.inr ⟨_, rfl, fun _ _ => ⟨rfl, rfl⟩⟩)

theorem shapeSound_rowE (n : Nat) (h : n < 16) : ShapeSound (BitVec.ofNat 8 (0xE0 + n)) := by
  interval_cases n <;>
    first
    | exact Or.inl ⟨_, rfl, rfl, rfl⟩
    | exact Or.inr (Or.inl ⟨_, rfl, fun _ => ⟨rfl, rfl⟩⟩)
    | exact Or.inr (Or.inr ⟨_, rfl, fun _ _ => ⟨rfl, rfl⟩⟩)

theorem shapeSound_rowF (n : Nat) (h : n < 16) : ShapeSound (BitVec.ofNat 8 (0xF0 + n)) := by
  interval_cases n <;>
    first
    | exact Or.inl ⟨_, rfl, rfl, rfl⟩
    | exact Or.inr (Or.inl ⟨_, rfl, fun _ => ⟨rfl, rfl⟩⟩)
    | exact Or.inr (Or.inr ⟨_, rfl, fun _ _ => ⟨rfl, rfl⟩⟩)

/-- Every opcode value has its entry in the map. -/
theorem shapeSound (op : Byte) : ShapeSound op := by
  have hl : op.toNat % 16 < 16 := Nat.mod_lt _ (by omega)
  have hop : BitVec.ofNat 8 (op.toNat / 16 * 16 + op.toNat % 16) = op := by
    rw [Nat.div_add_mod', BitVec.ofNat_toNat, BitVec.setWidth_eq]
  have hh : op.toNat / 16 < 16 := by
    have := op.isLt
    omega
  rw [← hop]
  generalize op.toNat % 16 = lo at hl
  generalize op.toNat / 16 = hi at hh
  interval_cases hi
  · exact shapeSound_row0 lo hl
  · exact shapeSound_row1 lo hl
  · exact shapeSound_row2 lo hl
  · exact shapeSound_row3 lo hl
  · exact shapeSound_row4 lo hl
  · exact shapeSound_row5 lo hl
  · exact shapeSound_row6 lo hl
  · exact shapeSound_row7 lo hl
  · exact shapeSound_row8 lo hl
  · exact shapeSound_row9 lo hl
  · exact shapeSound_rowA lo hl
  · exact shapeSound_rowB lo hl
  · exact shapeSound_rowC lo hl
  · exact shapeSound_rowD lo hl
  · exact shapeSound_rowE lo hl
  · exact shapeSound_rowF lo hl

end Sys2Proof
end

