-- ==== Sys2Proof/Laws/Fetch.lean ====
section
/-! SUPPORT. Fetching and decoding an instruction from plain memory. -/

namespace Sys2Proof.Machine

theorem fetch_pc (s : State) : (fetch s).2.cpu.pc = s.cpu.pc + 1 := by rw [fetch_cpu]

/-- Fetching from plain memory returns its bytes and moves PC past them (JSR leaves its third byte, R241). -/
theorem fetchInstr_mem (s : State) (h0 : placeable s s.cpu.pc = true) (h1 : placeable s (s.cpu.pc + 1) = true)
    (h2 : placeable s (s.cpu.pc + 2) = true) :
    (fetchInstr s).1 =
      [s.memoryByte s.cpu.pc, s.memoryByte (s.cpu.pc + 1), s.memoryByte (s.cpu.pc + 2)].take
        (instrLength (s.memoryByte s.cpu.pc)) ∧
    Untouched s (fetchInstr s).2 ∧
    (fetchInstr s).2.cpu = { s.cpu with
      pc := s.cpu.pc +
        (if s.memoryByte s.cpu.pc = 0x20 then 2 else BitVec.ofNat 16 (instrLength (s.memoryByte s.cpu.pc))) } := by
  have hv := fetch_value h0
  have u1 := fetch_untouched s
  have hv1 : (fetch (fetch s).2).1 = s.memoryByte (s.cpu.pc + 1) := by
    rw [fetch_value (by rw [fetch_pc, u1.placeable, h1]), fetch_pc, u1.memoryByte]
  have u2 := u1.trans (fetch_untouched (fetch s).2)
  have pc2 : (fetch (fetch s).2).2.cpu.pc = s.cpu.pc + 2 := by
    rw [fetch_pc, fetch_pc, BitVec.add_assoc]; rfl
  have hv2 : (fetch (fetch (fetch s).2).2).1 = s.memoryByte (s.cpu.pc + 2) := by
    rw [fetch_value (by rw [pc2, u2.placeable, h2]), pc2, u2.memoryByte]
  have u3 := u2.trans (fetch_untouched (fetch (fetch s).2).2)
  have hp : busValue (fetch (fetch s).2).2.cpu.pc (fetch (fetch s).2).2 = s.memoryByte (s.cpu.pc + 2) := by
    rw [busValue_placeable (by rw [pc2, u2.placeable, h2]), pc2, u2.memoryByte]
  have hl : ∀ op, instrLength op = 1 ∨ instrLength op = 2 ∨ instrLength op = 3 := by
    intro op
    unfold instrLength
    split <;> simp
  have h20 : instrLength 0x20 = 3 := rfl
  unfold fetchInstr
  dsimp only
  rw [hv]
  rcases hl (s.memoryByte s.cpu.pc) with h | h | h
  · have hne : s.memoryByte s.cpu.pc ≠ 0x20 := by intro h'; rw [h'] at h; cases h
    simp only [h, hne, if_false]
    exact ⟨rfl, u1, fetch_cpu s⟩
  · have hne : s.memoryByte s.cpu.pc ≠ 0x20 := by intro h'; rw [h'] at h; cases h
    simp only [h, hne, if_false]
    refine ⟨by rw [hv1]; rfl, u2, ?_⟩
    rw [fetch_cpu, fetch_cpu]
    simp [BitVec.add_assoc]
  · simp only [h]
    by_cases hj : s.memoryByte s.cpu.pc = 0x20
    · rw [if_pos hj, if_pos hj]
      refine ⟨by rw [hv1, hp]; rfl, u2, ?_⟩
      rw [fetch_cpu, fetch_cpu]
      simp [BitVec.add_assoc]
    · rw [if_neg hj, if_neg hj]
      refine ⟨by rw [hv1, hv2]; rfl, u3, ?_⟩
      rw [fetch_cpu, fetch_cpu, fetch_cpu]
      simp [BitVec.add_assoc]

/-- The bytes an opcode calls for decide what decodes. -/
theorem decode_take (a b c : Byte) : ∀ i r, decode [a, b, c] = .ok (i, r) →
    ∃ r', decode ([a, b, c].take (instrLength a)) = .ok (i, r') := by
  intro i r h
  unfold decode instrLength at *
  obtain ⟨j, hs, ho, hb⟩ | ⟨f, hs, hf⟩ | ⟨f, hs, hf⟩ := shapeSound a
  · simp [hs] at h ⊢; exact h.1
  · simp [hs] at h ⊢; exact h.1
  · simp [hs] at h ⊢; exact h.1

/-- What decodes has the opcode that stands first. -/
theorem decode_opcode {op : Byte} {tl r : List Byte} {i : Instr} (h : decode (op :: tl) = .ok (i, r)) : i.opcode = op := by
  unfold decode at h
  obtain ⟨j, hs, ho, _⟩ | ⟨f, hs, hf⟩ | ⟨f, hs, hf⟩ := shapeSound op
  · simp only [hs] at h
    cases tl <;> (cases h; exact ho)
  · simp only [hs] at h
    cases tl with
    | nil => cases h
    | cons x tl => cases h; exact (hf x).1
  · simp only [hs] at h
    cases tl with
    | nil => cases h
    | cons x tl =>
      cases tl with
      | nil => cases h
      | cons y tl => cases h; exact (hf x y).1

/-- Running the instruction at PC in plain memory is `exec` of what its bytes decode to, after their fetch. -/
theorem runInstruction_mem {s : State} {i : Instr} {rest : List Byte} (h0 : placeable s s.cpu.pc = true)
    (h1 : placeable s (s.cpu.pc + 1) = true) (h2 : placeable s (s.cpu.pc + 2) = true)
    (hd : decode [s.memoryByte s.cpu.pc, s.memoryByte (s.cpu.pc + 1), s.memoryByte (s.cpu.pc + 2)] = .ok (i, rest)) :
    runInstruction s = exec i (fetchInstr s).2 := by
  obtain ⟨r', hr⟩ := decode_take _ _ _ _ _ hd
  unfold runInstruction
  dsimp only
  rw [(fetchInstr_mem s h0 h1 h2).1, hr]

end Sys2Proof.Machine
end

