-- ==== Sys2Proof/Laws/Operations.lean ====
section
/-! SUPPORT. One lemma per shared operation: what it returns, what it writes and what it leaves alone. Provers cite these and do
not unfold the operations. -/

namespace Sys2Proof.Machine

/-! The fields a bus access and the end of a cycle write. -/

@[simp] theorem busWrite_ppu (a : Addr) (v : Byte) (s : State) : (busWrite a v s).ppu = ppuAfterWrite a v s := rfl
@[simp] theorem busWrite_apu (a : Addr) (v : Byte) (s : State) : (busWrite a v s).apu = apuAfterWrite a v s := rfl
@[simp] theorem busWrite_input (a : Addr) (v : Byte) (s : State) : (busWrite a v s).input = inputAfterWrite a v s := rfl
@[simp] theorem busWrite_mapper (a : Addr) (v : Byte) (s : State) : (busWrite a v s).mapper = mapperAfterWrite a v s := rfl
@[simp] theorem busWrite_ram (a : Addr) (v : Byte) (s : State) : (busWrite a v s).ram = ramAfterWrite a v s := rfl
@[simp] theorem busWrite_prgRam (a : Addr) (v : Byte) (s : State) : (busWrite a v s).prgRam = prgRamAfterWrite a v s := rfl
@[simp] theorem busWrite_chrRam (a : Addr) (v : Byte) (s : State) : (busWrite a v s).chrRam = chrRamAfterWrite a v s := rfl
@[simp] theorem busWrite_ciram (a : Addr) (v : Byte) (s : State) : (busWrite a v s).ciram = ciramAfterWrite a v s := rfl
@[simp] theorem busWrite_diag (a : Addr) (v : Byte) (s : State) : (busWrite a v s).diag = diagAfterWrite a v s := rfl
@[simp] theorem busWrite_bus (a : Addr) (v : Byte) (s : State) : (busWrite a v s).bus = busAfterWrite a v s := rfl
@[simp] theorem busWrite_image (a : Addr) (v : Byte) (s : State) : (busWrite a v s).image = s.image := rfl
@[simp] theorem busRead_fst (a : Addr) (s : State) : (busRead a s).1 = busValue a s := rfl
@[simp] theorem busRead_ppu (a : Addr) (s : State) : (busRead a s).2.ppu = ppuAfterRead a s := rfl
@[simp] theorem busRead_apu (a : Addr) (s : State) : (busRead a s).2.apu = apuAfterRead a s := rfl
@[simp] theorem busRead_input (a : Addr) (s : State) : (busRead a s).2.input = inputAfterRead a s := rfl
@[simp] theorem busRead_db (a : Addr) (s : State) : (busRead a s).2.bus.db = busValue a s := rfl
@[simp] theorem busRead_mapper (a : Addr) (s : State) : (busRead a s).2.mapper = s.mapper := rfl
@[simp] theorem busRead_diag (a : Addr) (s : State) : (busRead a s).2.diag = s.diag := rfl

/-! The memories at reset. -/

/-- Every memory of the machine right after reset is in its canonical form. -/
theorem reset_memories : MemoriesCanonical State.reset := ⟨rfl, rfl, rfl, rfl, rfl, rfl, rfl⟩

theorem Mem.wf_copyBytes (bs : List Byte) : ∀ (a : Nat) (m : Mem 8), m.wf = true → (copyBytes a bs m).wf = true := by
  induction bs with
  | nil => exact fun _ _ h => h
  | cons b t ih => exact fun a m h => ih (a + 1) _ (Mem.wf_write m a b h)

/-! Reads. -/

/-- The effective address is `target` in every class (spec/30_encoding.md R135 to R141). -/
theorem target_eq (cls : AccClass) (m : MemOperand) (s : State) : (effAddr cls m s).1 = s.target m := by
  cases m with
  | zp z => rfl
  | zpx z => rfl
  | zpy z => rfl
  | abs l h => rfl
  | abx l h => rfl
  | aby l h => rfl
  | izx z =>
    have hu := dummyRead_untouched (zeroPage z) s
    have h := readWord_value (s := dummyRead (zeroPage z) s) (placeable_zeroPage _ (z + s.cpu.x))
      (placeable_zeroPage _ (z + s.cpu.x + 1))
    show (readWord _ _ _).1 = _
    rw [h]
    unfold State.memoryWord
    rw [hu.memoryByte, hu.memoryByte]
    rfl
  | izy z =>
    have h := readWord_value (placeable_zeroPage s z) (placeable_zeroPage s (z + 1))
    show (readWord _ _ _).1 + _ = _
    rw [h]
    rfl

/-- The operand byte at a target in memory. -/
theorem readSrc_value {m : MemOperand} {s : State} (h : placeable s (s.target m) = true) :
    (readSrc (.mem m) s).1 = s.memoryByte (s.target m) := by
  show (memRead (effAddr .read m s).1 (effAddr .read m s).2).1 = _
  rw [target_eq, memRead_value (by rw [(effAddr_untouched .read m s).placeable, h]), (effAddr_untouched .read m s).memoryByte]

theorem memRead_readOnly (a : Addr) (s : State) : ReadOnly s (memRead a s).2 := (readOnly_stable s).memRead a (ReadOnly.refl s)

theorem readWord_readOnly (lo hi : Addr) (s : State) : ReadOnly s (readWord lo hi s).2 :=
  (readOnly_stable s).readWord lo hi (ReadOnly.refl s)

theorem effAddr_readOnly (cls : AccClass) (m : MemOperand) (s : State) : ReadOnly s (effAddr cls m s).2 :=
  (readOnly_stable s).effAddr cls m (ReadOnly.refl s)

theorem indexed_readOnly (cls : AccClass) (base : Addr) (i : Byte) (s : State) : ReadOnly s (indexed cls base i s).2 :=
  (readOnly_stable s).toBusStable.indexed cls base i (ReadOnly.refl s)

theorem readOperand_untouched (f : Byte → Cpu → Cpu) (x : Src) (s : State) : Untouched s (readOperand f x s) :=
  (untouched_stable s).readOperand f x (Untouched.refl s)

theorem implied_untouched (f : Cpu → Cpu) (s : State) : Untouched s (implied f s) :=
  (untouched_stable s).implied f (Untouched.refl s)

theorem modifyAcc_untouched (f : Byte → Cpu → Byte × Cpu) (s : State) : Untouched s (modifyAcc f s) :=
  (untouched_stable s).modifyAcc f (Untouched.refl s)

theorem indexed_untouched (cls : AccClass) (base : Addr) (i : Byte) (s : State) : Untouched s (indexed cls base i s).2 :=
  (untouched_stable s).toBusStable.indexed cls base i (Untouched.refl s)

theorem nopAccesses_untouched (f : Form) (s : State) : Untouched s (nopAccesses f s) :=
  (untouched_stable s).nopAccesses f (Untouched.refl s)

theorem readSrc_untouched (x : Src) (s : State) : Untouched s (readSrc x s).2 :=
  (untouched_stable s).toBusStable.readSrc x (Untouched.refl s)

theorem branch_untouched (c : Bool) (o : Byte) (s : State) : Untouched s (branch c o s) :=
  (untouched_stable s).branch c o (Untouched.refl s)

theorem returnFromException_untouched (s : State) : Untouched s (returnFromException s) :=
  (untouched_stable s).returnFromException (Untouched.refl s)

/-- No access but a write of the mapper's registers logs (spec/61_bus_mapper.md R394). -/
theorem diag_stable (l : List Diagnostic) : BusStable (fun s => s.diag = l) where
  dot _ h := h
  tick s h := by rw [apuTick_eq]; exact h
  access _ _ h := h
  finish _ h := h
  stall _ _ h := h
  dmaStart _ h := h
  hang _ h := h
  dma := Or.inr fun _ _ h => h

theorem nopAccesses_diag (f : Form) (s : State) : (nopAccesses f s).diag = s.diag := by
  unfold nopAccesses
  split
  · exact (diag_stable _).readSrc _ rfl
  · exact (diag_stable _).dummyRead _ rfl

/-! Stores. -/

/-- A write after reads is a store. -/
theorem stored_of_write {s u : State} (h : ReadOnly s u) (ea : Addr) (v : Byte) : Stored ea v s (memWrite ea v u) where
  frame := (StoreFrame.of_readOnly h ea).memWrite v
  last := ⟨u, StoreFrame.of_readOnly h ea, rfl⟩
  byte := by
    intro hb
    have hw : prgRamWritable u.mapper = prgRamWritable s.mapper := by
      rw [← prgRamWritable_registers, h.mapper, prgRamWritable_registers]
    unfold State.memoryByte
    rcases hb with hb | ⟨h1, h2, h3⟩
    · rw [if_pos hb, memWrite_ram]
      unfold ramAfterWrite
      rw [if_pos hb, Mem.read_write_same]
    · have hn : ¬ ea.toNat < 0x2000 := by omega
      simp only [hn, h2, if_true, if_false]
      rw [memWrite_prgRam]
      unfold prgRamAfterWrite
      rw [hw, h3]
      simp [h1, h2, Mem.read_write_same]

/-- A write-class operand (R131). -/
theorem storeOperand_stored (f : Cpu → Byte) (m : MemOperand) (s : State) :
    Stored (s.target m) (f s.cpu) s (storeOperand f m s) := by
  have h := stored_of_write (effAddr_readOnly .write m s) (s.target m) (f s.cpu)
  unfold storeOperand
  dsimp only
  rwa [target_eq, effAddr_cpu]

/-- The two writes of a read-modify-write operand, after reads (R132). -/
theorem modifyOperand_eq (f : Byte → Cpu → Byte × Cpu) (m : MemOperand) (s : State) :
    ∃ u, ReadOnly s u ∧ u.cpu = s.cpu ∧ modifyOperand f m s = memWrite (s.target m) (f (oldByte m s) s.cpu).1
      { memWrite (s.target m) (oldByte m s) u with cpu := (f (oldByte m s) s.cpu).2 } := by
  refine ⟨(memRead (s.target m) (effAddr .modify m s).2).2,
    (effAddr_readOnly .modify m s).trans (memRead_readOnly (s.target m) (effAddr .modify m s).2), ?_, ?_⟩
  · rw [memRead_cpu, effAddr_cpu]
  · have hcpu : (memWrite (s.target m) (oldByte m s) (memRead (s.target m) (effAddr .modify m s).2).2).cpu = s.cpu := by
      rw [memWrite_cpu, memRead_cpu, effAddr_cpu]
    have hold : (memRead (s.target m) (effAddr .modify m s).2).1 = oldByte m s := by unfold oldByte; rw [target_eq]
    unfold modifyOperand
    dsimp only
    rw [target_eq, hold, hcpu]

/-- A read-modify-write operand (R132). -/
theorem modifyOperand_stored (f : Byte → Cpu → Byte × Cpu) (m : MemOperand) (s : State) :
    Stored (s.target m) (f (oldByte m s) s.cpu).1 s (modifyOperand f m s) := by
  obtain ⟨u, hu, -, heq⟩ := modifyOperand_eq f m s
  have h1 : StoreFrame (s.target m) s { memWrite (s.target m) (oldByte m s) u with cpu := (f (oldByte m s) s.cpu).2 } :=
    (stored_of_write hu (s.target m) (oldByte m s)).frame.cpu _
  rw [heq]
  refine ⟨h1.memWrite _, ⟨_, h1, rfl⟩, ?_⟩
  intro hb
  unfold State.memoryByte
  rcases hb with hb | ⟨hb1, hb2, hb3⟩
  · rw [if_pos hb, memWrite_ram]
    unfold ramAfterWrite
    rw [if_pos hb, Mem.read_write_same]
  · have hn : ¬(s.target m).toNat < 0x2000 := by omega
    have hw : prgRamWritable (memWrite (s.target m) (oldByte m s) u).mapper = true := by
      rw [← hb3, ← prgRamWritable_registers, ← prgRamWritable_registers s.mapper]
      exact congrArg _ (h1.mapper (by omega))
    simp only [hn, hb2, if_true, if_false]
    rw [memWrite_prgRam]
    unfold prgRamAfterWrite
    rw [if_pos (by simp only [hb1, hb2, decide_true, Bool.true_and]; exact hw), Mem.read_write_same]

/-- An address-high-byte store (spec/46_unofficial.md R296 to R299). -/
theorem storeHigh_stored (reg i : Byte) (base : Addr) {s u : State} (h : ReadOnly s u) :
    Stored (highTarget base i (reg &&& (hi8 base + 1))) (reg &&& (hi8 base + 1)) s (storeHigh reg base i u) :=
  stored_of_write (h.trans (indexed_readOnly .write base i u)) _ _

/-! The stack. -/

theorem ReadOnly.stackFrame {s u : State} (h : ReadOnly s u) : StackFrame 0 s u :=
  ⟨{ h.toUntouched with ram := rfl }, fun b _ _ => h.toUntouched.memoryByte b, h.oam⟩

theorem StackFrame.then_readOnly {n : Nat} {s u v : State} (h : StackFrame n s u) (k : ReadOnly u v) :
    StackFrame n s v :=
  ⟨h.rest.trans ({ k.toUntouched with ram := rfl } : Untouched { u with ram := s.ram } { v with ram := s.ram }),
    fun b hb hc => (k.toUntouched.memoryByte b).trans (h.ram b hb hc),
    fun hs => ⟨(k.oam (h.oam hs).2).1.trans (h.oam hs).1, (k.oam (h.oam hs).2).2⟩⟩

/-- A push touches no sprite memory and requests no DMA. -/
theorem push_oam (v : Byte) {s : State} (h : s.bus.oamdmaPending = false) : OamUntouched s (push v s) := by
  have hl := s.cpu.s.isLt
  have ha : (stackAddr s.cpu.s).toNat < 0x2000 := by rw [stackAddr_toNat]; omega
  refine ⟨memWrite_oam (fun ho => absurd ho.1 (by omega)) v s, ?_⟩
  show ((beginCycle s).bus.oamdmaPending || (stackAddr s.cpu.s).toNat == 0x4014) = false
  rw [(beginCycle_counters s).2.2, h, beq_eq_false_iff_ne.mpr (by omega)]
  rfl

/-- One push more (spec/00_scope.md R16). -/
theorem StackFrame.push_more {n : Nat} {s u : State} (v : Byte) (h : StackFrame n s u) (hn : n < 256)
    (hs : u.cpu.s = s.cpu.s - BitVec.ofNat 8 n) :
    StackFrame (n + 1) s (push v u) := by
  have hp := push_untouched v u
  have hram := push_ram v u
  constructor
  · have h1 : Untouched { u with ram := s.ram } { (push v u) with ram := s.ram } :=
      ⟨hp.cfg, hp.image, hp.power, hp.resetPending, rfl, hp.prgRam, hp.chrRam, hp.ciram, hp.pal, hp.mapper, hp.ctrl, hp.mask,
        hp.scrollT, hp.scrollX, hp.wantVideo, hp.pulse1, hp.pulse2, hp.triangle, hp.noise, hp.dmc, hp.fcMode, hp.fcInhibit,
        hp.strobe, hp.latched⟩
    exact h.rest.trans h1
  rotate_left
  · exact fun h0 => ⟨(push_oam v (h.oam h0).2).1.trans (h.oam h0).1, (push_oam v (h.oam h0).2).2⟩
  · intro b hb hc
    rw [← h.ram b hb (by omega)]
    unfold State.memoryByte
    rw [if_pos hb, if_pos hb, hram, Mem.read_write_other]
    rw [hs]
    intro he
    have hl := s.cpu.s.isLt
    rcases hc with hc | hc | hc
    · omega
    · omega
    · have hbl : BitVec.ofNat 8 b.toNat = s.cpu.s - BitVec.ofNat 8 n := by
        apply BitVec.eq_of_toNat_eq
        have := (s.cpu.s - BitVec.ofNat 8 n).isLt
        simp only [BitVec.toNat_ofNat]
        omega
      rw [hbl] at hc
      have : s.cpu.s - (s.cpu.s - BitVec.ofNat 8 n) = BitVec.ofNat 8 n := by
        apply BitVec.eq_of_toNat_eq
        simp only [BitVec.toNat_sub, BitVec.toNat_ofNat]
        omega
      rw [this] at hc
      simp only [BitVec.toNat_ofNat] at hc
      omega

/-- A byte of the stack page after a push. -/
theorem push_stack_read (v : Byte) (u : State) (p : Byte) :
    (push v u).memoryByte (word 0x01 p) = if p = u.cpu.s then v else u.memoryByte (word 0x01 p) := by
  rw [show word 0x01 p = stackAddr p from rfl, memoryByte_stack, memoryByte_stack, push_ram]
  split
  · rename_i h; rw [h, Mem.read_write_same]
  · rename_i h
    rw [Mem.read_write_other]
    intro he
    apply h
    apply BitVec.eq_of_toNat_eq
    omega

/-- The byte a pull returns. -/
theorem pull_stack_read {s u : State} (h : Untouched s u) : (pull u).1 = s.memoryByte (word 0x01 (u.cpu.s + 1)) := by
  rw [pull_value, h.ram]
  exact (memoryByte_stack s _).symm

/-! Exceptions. -/


/-- PRG-ROM is not the stack. -/
theorem StackFrame.rom {n : Nat} {s u : State} (h : StackFrame n s u) {a : Addr} (ha : 0x8000 ≤ a.toNat) :
    u.memoryByte a = s.memoryByte a := by
  have h1 := h.rest.memoryByte a
  unfold State.memoryByte at h1 ⊢
  rw [if_neg (by omega), if_neg (by omega), if_neg (by omega), if_neg (by omega)] at h1
  rw [if_neg (by omega), if_neg (by omega), if_neg (by omega), if_neg (by omega)]
  exact h1

/-- What taking an exception does, from a state `u` that reads have led to from `s` (spec/60_exceptions.md R328). -/
theorem takeException_effect (vec : Addr) (b : Bool) {s u : State} (h : ReadOnly s u) (hs : u.cpu.s = s.cpu.s)
    (hv : 0x8000 ≤ vec.toNat) (hv' : 0x8000 ≤ (vec + 1).toNat) :
    let t := takeException vec b u
    StackFrame 3 s t ∧ t.cpu = { u.cpu with s := u.cpu.s - 3, i := true, pc := s.memoryWord vec (vec + 1) } ∧
    t.memoryByte (word 0x01 s.cpu.s) = hi8 u.cpu.pc ∧ t.memoryByte (word 0x01 (s.cpu.s - 1)) = lo8 u.cpu.pc ∧
    t.memoryByte (word 0x01 (s.cpu.s - 2)) = u.cpu.pByte b := by
  have e2 : s.cpu.s - 1 - 1 = s.cpu.s - 2 := by bv_omega
  have e3 : s.cpu.s - 2 - 1 = s.cpu.s - 3 := by bv_omega
  let s2 := push (hi8 u.cpu.pc) u
  have f2 : StackFrame 1 s s2 := StackFrame.push_more _ h.stackFrame (by omega) (by rw [hs]; simp)
  have c2 : s2.cpu = { u.cpu with s := s.cpu.s - 1 } := by rw [push_cpu, hs]
  let s3 := push (lo8 s2.cpu.pc) s2
  have f3 : StackFrame 2 s s3 := StackFrame.push_more _ f2 (by omega) (by rw [c2]; rfl)
  have c3 : s3.cpu = { u.cpu with s := s.cpu.s - 2 } := by rw [push_cpu, c2]; simp only [e2]
  let s4 := push (s3.cpu.pByte b) s3
  have f4 : StackFrame 3 s s4 := StackFrame.push_more _ f3 (by omega) (by rw [c3]; rfl)
  have c4 : s4.cpu = { u.cpu with s := s.cpu.s - 3 } := by rw [push_cpu, c3]; simp only [e3]
  let s5 := s4.setI true
  have u5 : ReadOnly s4 s5 := (readOnly_stable s4).setI true (ReadOnly.refl s4)
  have f5 := f4.then_readOnly u5
  let r := readWord vec (vec + 1) s5
  have hr : r.1 = s.memoryWord vec (vec + 1) := by
    rw [show r.1 = (readWord vec (vec + 1) s5).1 from rfl, readWord_value (placeable_of_rom hv) (placeable_of_rom hv')]
    unfold State.memoryWord
    rw [f5.rom hv, f5.rom hv']
  have u7 : ReadOnly s4 (r.2.setPc r.1) := (readOnly_stable s4).setPc _ (u5.trans (readWord_readOnly _ _ _))
  have hm : ∀ p, (r.2.setPc r.1).memoryByte (word 0x01 p) = if p = s.cpu.s - 2 then u.cpu.pByte b
      else if p = s.cpu.s - 1 then lo8 u.cpu.pc else if p = s.cpu.s then hi8 u.cpu.pc else u.memoryByte (word 0x01 p) := by
    intro p
    rw [u7.toUntouched.memoryByte, push_stack_read, c3, push_stack_read, c2, push_stack_read, hs]
    rfl
  refine ⟨f4.then_readOnly u7, ?_, ?_, ?_, ?_⟩
  · show ({ (readWord vec (vec + 1) s5).2.cpu with pc := r.1 } : Cpu) = _
    rw [readWord_cpu, hr]
    show ({ ({ s4.cpu with i := true } : Cpu) with pc := s.memoryWord vec (vec + 1) } : Cpu) = _
    rw [c4, hs]
  · show (r.2.setPc r.1).memoryByte _ = _
    rw [hm, if_neg (by bv_omega), if_neg (by bv_omega), if_pos rfl]
  · show (r.2.setPc r.1).memoryByte _ = _
    rw [hm, if_neg (by bv_omega), if_pos rfl]
  · show (r.2.setPc r.1).memoryByte _ = _
    rw [hm, if_pos rfl]

/-- What the return from an exception does to the registers, after reads from `s` (spec/45_flags_system.md R269). -/
theorem returnFromException_cpu {s u : State} (h : Untouched s u) (hc : u.cpu = s.cpu) :
    (returnFromException u).cpu =
      { s.cpu.setP (s.memoryByte (word 0x01 (s.cpu.s + 1))) with
        s := s.cpu.s + 3
        pc := s.memoryWord (word 0x01 (s.cpu.s + 2)) (word 0x01 (s.cpu.s + 3)) } := by
  have e2 : s.cpu.s + 1 + 1 = s.cpu.s + 2 := by bv_omega
  have e3 : s.cpu.s + 2 + 1 = s.cpu.s + 3 := by bv_omega
  let p := pull u
  have hp : p.1 = s.memoryByte (word 0x01 (s.cpu.s + 1)) := by rw [← hc]; exact pull_stack_read h
  let s2 := p.2.mapCpu (Cpu.setP p.1)
  have h2 : Untouched s s2 := (untouched_stable s).mapCpu _ (h.trans (pull_untouched _))
  have c2 : s2.cpu = ({ s.cpu with s := s.cpu.s + 1 } : Cpu).setP p.1 := by
    show (pull u).2.cpu.setP p.1 = _
    rw [pull_cpu, hc]
  have c2s : s2.cpu.s = s.cpu.s + 1 := by rw [c2]; rfl
  let lo := pull s2
  have hlo : lo.1 = s.memoryByte (word 0x01 (s.cpu.s + 2)) := by
    rw [show lo.1 = (pull s2).1 from rfl, pull_stack_read h2, c2s, e2]
  have c3 : lo.2.cpu = { s2.cpu with s := s.cpu.s + 2 } := by rw [pull_cpu, c2s, e2]
  let hi := pull lo.2
  have hhi : hi.1 = s.memoryByte (word 0x01 (s.cpu.s + 3)) := by
    rw [show hi.1 = (pull lo.2).1 from rfl, pull_stack_read (h2.trans (pull_untouched _)), c3]
    simp only [e3]
  show ({ (pull lo.2).2.cpu with pc := word hi.1 lo.1 } : Cpu) = _
  rw [pull_cpu, c3, c2, hp, hlo, hhi]
  simp only [e3]
  rfl

end Sys2Proof.Machine
end

