-- ==== Sys2Proof/Laws/Interrupts.lean ====
section
/-! SUPPORT. The interrupt entries: what they save and where they go, and what happens to requests in their seven cycles. -/

namespace Sys2Proof.Machine

/-! What an entry does. -/

/-- The entry sequence from a state that reads have led to from `s` (spec/60_exceptions.md R328). -/
theorem interruptEntry_effect (vec : Addr) {s u : State} (h : ReadOnly s u) (hc : u.cpu = s.cpu)
    (hv : 0x8000 ≤ vec.toNat) (hv' : 0x8000 ≤ (vec + 1).toNat) :
    let t := interruptEntry vec u
    StackFrame 3 s t ∧ t.cpu = { s.cpu with s := s.cpu.s - 3, i := true, pc := s.memoryWord vec (vec + 1) } ∧
    t.memoryByte (word 0x01 s.cpu.s) = hi8 s.cpu.pc ∧ t.memoryByte (word 0x01 (s.cpu.s - 1)) = lo8 s.cpu.pc ∧
    t.memoryByte (word 0x01 (s.cpu.s - 2)) = s.cpu.pByte false := by
  have hu : ReadOnly s (dummyRead (dummyRead u.cpu.pc u).cpu.pc (dummyRead u.cpu.pc u)) :=
    h.trans ((memRead_readOnly _ _).trans (memRead_readOnly _ _))
  have hcpu : (dummyRead (dummyRead u.cpu.pc u).cpu.pc (dummyRead u.cpu.pc u)).cpu = s.cpu := by
    rw [dummyRead_cpu, dummyRead_cpu, hc]
  have ht := takeException_effect vec false hu (congrArg Cpu.s hcpu) hv hv'
  rw [hcpu] at ht
  exact ht

/-! A property through the cycles of an entry. -/

/-- `P k` says that `P` is kept for `k` CPU cycles more, in a quiet state, by reads of memory, writes of work RAM and changes of the
CPU's registers. -/
structure CycleChain (P : Nat → State → Prop) : Prop where
  start : ∀ k s, Quiet s → P (k + 1) s → P k (beginCycle s)
  read : ∀ k a s, placeable s a = true → P k s → P k (busRead a s).2
  write : ∀ k a v s, a.toNat < 0x2000 → P k s → P k (busWrite a v s)
  finish : ∀ k s, P k s → P k (endCycle s)
  cpu : ∀ k s c, P k s → P k { s with cpu := c }

section chain
variable {P : Nat → State → Prop}

theorem CycleChain.memRead (h : CycleChain P) {k : Nat} {a : Addr} {s : State} (q : Quiet s) (hp : placeable s a = true)
    (hs : P (k + 1) s) : P k (memRead a s).2 ∧ Quiet (memRead a s).2 := by
  refine ⟨?_, (memRead_spent a q).quiet⟩
  rw [memRead_eq_readCycle q]
  exact h.finish _ _ (h.read _ _ _ (by rw [(beginCycle_untouched s).placeable]; exact hp) (h.start _ _ q hs))

theorem CycleChain.push (h : CycleChain P) {k : Nat} {v : Byte} {s : State} (q : Quiet s) (hs : P (k + 1) s) :
    P k (push v s) ∧ Quiet (push v s) := by
  have hl := s.cpu.s.isLt
  exact ⟨h.cpu _ _ _ (h.finish _ _ (h.write _ _ _ _ (by rw [stackAddr_toNat]; omega) (h.start _ _ q hs))), (push_spent v q).quiet⟩

theorem Quiet.cpu {s : State} (q : Quiet s) (c : Cpu) : Quiet { s with cpu := c } := ⟨q.stall, q.oamDma, q.dmc⟩

/-- An interrupt entry is seven such cycles, when its dummy reads are of memory. -/
theorem CycleChain.interruptEntry (h : CycleChain P) {k : Nat} {vec : Addr} {s : State} (q : Quiet s)
    (hp : placeable s s.cpu.pc = true) (hv : 0x8000 ≤ vec.toNat) (hv' : 0x8000 ≤ (vec + 1).toNat) (hs : P (k + 7) s) :
    P k (interruptEntry vec s) := by
  obtain ⟨p1, q1⟩ := h.memRead q hp hs
  have hp1 : placeable (dummyRead s.cpu.pc s) (dummyRead s.cpu.pc s).cpu.pc = true := by
    rw [dummyRead_cpu, (dummyRead_untouched _ s).placeable]; exact hp
  obtain ⟨p2, q2⟩ := h.memRead q1 hp1 p1
  obtain ⟨p3, q3⟩ := h.push q2 p2
  obtain ⟨p4, q4⟩ := h.push q3 p3
  obtain ⟨p5, q5⟩ := h.push q4 p4
  obtain ⟨p6, q6⟩ := h.memRead (q5.cpu _) (placeable_of_rom hv) (h.cpu _ _ _ p5)
  obtain ⟨p7, q7⟩ := h.memRead q6 (placeable_of_rom hv') p6
  exact h.cpu _ _ _ p7

end chain

/-- A read of memory touches no device. -/
theorem busRead_devices {a : Addr} {s : State} (h : placeable s a = true) :
    (busRead a s).2.ppu = s.ppu ∧ (busRead a s).2.apu = s.apu := by
  unfold placeable at h
  simp only [Bool.or_eq_true, Bool.and_eq_true, decide_eq_true_eq] at h
  exact ⟨if_neg (by simp only [Bool.and_eq_true, decide_eq_true_eq]; omega), if_neg (by omega)⟩

/-! The NMI request. -/

theorem dotsAt_le (rg : Region) (m : Nat) : dotsAt rg m ≤ 4 := by
  cases rg <;> simp only [dotsAt, Region.cpuDiv, Region.ppuDiv] <;> omega

/-- NMIs are enabled, the request has been seen, and the vblank flag stays set for `k` dots more at least. -/
structure Held (k : Nat) (s : State) : Prop where
  pend : s.bus.nmiPending = false
  prev : s.bus.nmiPrev = true
  flag : s.ppu.vblankFlag = true
  ctrl : s.ppu.ctrl.getLsbD 7 = true
  pos : 341 * s.ppu.scanline + s.ppu.dot + k < 341 * s.image.region.preLine

theorem Held.ofDot (k : Nat) (s : State) (h : Held (k + 1) s) : Held k (runDot s) := by
  have hp : s.ppu.scanline ≠ s.image.region.preLine := by
    intro he; have := h.pos; rw [he] at this; omega
  obtain ⟨p, hw, hv⟩ := ppuDotWork_flagDot s
  have hf : (ppuDotWork s).vblankFlag = true := by
    have hpf : p.vblankFlag = true := (congrArg Prod.fst hv).trans h.flag
    rw [hw]
    unfold flagDot
    dsimp only
    rw [if_neg (by simp [hp])]
    split
    · split <;> simp [hpf]
    · split <;> simp [hpf]
  have hreg := ppuDotWork_sameRegs s
  refine ⟨h.pend, h.prev, ?_, ?_, ?_⟩
  · rw [runDot_ppu]; exact (congrArg Prod.fst (advanceDot_vblank _ _)).trans hf
  · rw [runDot_ctrl]; exact h.ctrl
  · have := advanceDot_before_pre s.image.region (ppuDotWork s) (by rw [hreg.scanline]; exact hp)
    rw [hreg.scanline, hreg.dot] at this
    rw [runDot_ppu]
    have h2 := h.pos
    show _ < 341 * s.image.region.preLine
    omega

theorem Held.dots (n : Nat) : ∀ k s, Held (k + n) s → Held k (runDots n s) := by
  induction n with
  | zero => exact fun _ _ h => h
  | succ n ih => exact fun k s h => ih k _ (Held.ofDot _ s (by rw [Nat.add_assoc]; exact h))

theorem Held.mono {k j : Nat} {s : State} (h : Held k s) (hj : j ≤ k) : Held j s :=
  ⟨h.pend, h.prev, h.flag, h.ctrl, by have := h.pos; omega⟩

/-- No NMI edge comes while the request is held. -/
theorem held_chain : CycleChain (fun k s => Held (4 * k) s) where
  start k s q h := by
    have h1 := Held.dots (dotsAt s.image.region s.bus.mclk) (4 * k) s
      (Held.mono h (by have := dotsAt_le s.image.region s.bus.mclk; omega))
    have hq : (runDots (dotsAt s.image.region s.bus.mclk) s).apu.dmc.remaining = 0 := by
      rw [(runDots_bus _ _).2]; exact q.dmc
    have h2 := (apuTick_of_idle hq).1
    unfold beginCycle
    generalize hu : runDots (dotsAt s.image.region s.bus.mclk) s = u at h1 hq h2
    have h3 : (apuTick u).ppu = u.ppu ∧ (apuTick u).image = u.image := by rw [apuTick_eq]; exact ⟨rfl, rfl⟩
    exact ⟨by rw [h2]; exact h1.pend, by rw [h2]; exact h1.prev, by rw [h3.1]; exact h1.flag, by rw [h3.1]; exact h1.ctrl,
      by rw [h3.1, h3.2]; exact h1.pos⟩
  read k a s hp h := by
    have := (busRead_devices hp).1
    exact ⟨h.pend, h.prev, by rw [this]; exact h.flag, by rw [this]; exact h.ctrl, by rw [this]; exact h.pos⟩
  write k a v s ha h := by
    have : (busWrite a v s).ppu = s.ppu := if_neg (by simp; omega)
    exact ⟨h.pend, h.prev, by rw [this]; exact h.flag, by rw [this]; exact h.ctrl, by rw [this]; exact h.pos⟩
  finish k s h := by
    have hr : s.ppu.nmiRequest = true := by unfold Ppu.nmiRequest; rw [h.flag, h.ctrl]; rfl
    refine ⟨?_, hr, h.flag, h.ctrl, h.pos⟩
    show (s.bus.nmiPending || (s.ppu.nmiRequest && !s.bus.nmiPrev)) = false
    rw [h.pend, h.prev]; simp
  cpu k s c h := ⟨h.pend, h.prev, h.flag, h.ctrl, h.pos⟩

/-! The IRQ sources. -/

theorem Apu.tickFrame_keeps_frameIrq (rg : Region) (a : Apu) (h : a.frameIrq = true) : (a.tickFrame rg).frameIrq = true := by
  have r : ∀ a : Apu, a.frameIrq = true → a.raiseFrameIrq.frameIrq = true := by
    intro a h; unfold Apu.raiseFrameIrq; split <;> first | exact h | rfl
  have d : a.delayedReset.frameIrq = true := by
    unfold Apu.delayedReset
    split
    · exact h
    · dsimp only; split
      · split <;> exact h
      · exact h
  unfold Apu.tickFrame Apu.frameStep
  dsimp only
  split
  · exact d
  split
  · exact d
  split
  · split
    · exact d
    · split <;> exact d
  · split
    · exact r _ d
    · split
      · exact r _ d
      · split
        · exact r _ d
        · exact d

theorem Apu.tickFrame_dmcIrq (rg : Region) (a : Apu) : (a.tickFrame rg).dmcIrq = a.dmcIrq := by
  have r : ∀ a : Apu, a.raiseFrameIrq.dmcIrq = a.dmcIrq := by
    intro a; unfold Apu.raiseFrameIrq; split <;> rfl
  have d : a.delayedReset.dmcIrq = a.dmcIrq := by
    unfold Apu.delayedReset
    split
    · rfl
    · dsimp only
      split
      · split <;> rfl
      · rfl
  refine Eq.trans ?_ d
  unfold Apu.tickFrame Apu.frameStep
  dsimp only
  split
  · rfl
  split
  · rfl
  split
  · split
    · rfl
    · split <;> rfl
  · split
    · exact r _
    · split
      · exact r _
      · split
        · exact r _
        · rfl

theorem apuTick_keeps_irq (s : State) (q : s.apu.dmc.remaining = 0) (h : irqLine s = true) : irqLine (apuTick s) = true := by
  have hd : ({ s with apu := s.apu.tickFrame s.image.region } : State).apu.dmc.remaining = 0 := by
    rw [← q]; exact congrArg Dmc.remaining (Apu.tickFrame_dmc s.image.region s.apu)
  have hq := Apu.tickFrame_dmcIrq s.image.region s.apu
  have hs : ∀ a : Apu, ∀ c, (a.sample s.image.region c).frameIrq = a.frameIrq ∧ (a.sample s.image.region c).dmcIrq = a.dmcIrq := by
    intro a c; unfold Apu.sample; dsimp only; split <;> exact ⟨rfl, rfl⟩
  have ht : ∀ (a : Apu) n, (a.tickTimers s.image.region n).frameIrq = a.frameIrq ∧ (a.tickTimers s.image.region n).dmcIrq = a.dmcIrq := by
    intro a n; unfold Apu.tickTimers; dsimp only; split <;> exact ⟨rfl, rfl⟩
  unfold apuTick
  dsimp only
  rw [dmcFetch_of_idle hd]
  unfold irqLine at h ⊢
  dsimp only
  rw [(hs _ _).1, (hs _ _).2, (ht _ _).1, (ht _ _).2, hq]
  simp only [Bool.or_eq_true] at h ⊢
  rcases h with (h | h) | h
  · exact Or.inl (Or.inl (Apu.tickFrame_keeps_frameIrq _ _ h))
  · exact Or.inl (Or.inr h)
  · exact Or.inr h

theorem runDot_keeps_irq (s : State) (h : irqLine s = true) : irqLine (runDot s) = true := by
  have hm : ∀ v a (m : Mapper), m.irq = true → (mapperDot v a m).irq = true := by
    intro v a m h
    cases m with
    | mmc3 r =>
      unfold mapperDot
      dsimp only
      split
      · split
        · show (_ || _) = true
          unfold Mapper.irq at h
          dsimp only at h
          rw [h]; rfl
        · exact h
      · exact h
    | _ => exact h
  unfold irqLine at h ⊢
  rw [runDot_mapper]
  show (s.apu.frameIrq || s.apu.dmcIrq || _) = true
  simp only [Bool.or_eq_true] at h ⊢
  exact h.imp id (hm _ _ _)

/-- Nothing but a CPU access to the source's registers lowers an IRQ (spec/60_exceptions.md R323, R330). -/
theorem irq_chain : CycleChain (fun _ s => irqLine s = true) where
  start k s q h := by
    have hd : ∀ n s, irqLine s = true → irqLine (runDots n s) = true := by
      intro n
      induction n with
      | zero => exact fun _ h => h
      | succ n ih => exact fun s h => ih _ (runDot_keeps_irq s h)
    exact apuTick_keeps_irq _ (by rw [(runDots_bus _ _).2]; exact q.dmc) (hd _ _ h)
  read k a s hp h := by
    unfold irqLine; rw [(busRead_devices hp).2]; exact h
  write k a v s ha h := by
    have h1 : (busWrite a v s).apu = s.apu := if_neg (by simp; omega)
    have h2 : (busWrite a v s).mapper = s.mapper := if_neg (by omega)
    unfold irqLine; rw [h1, h2]; exact h
  finish k s h := h
  cpu k s c h := h

/-! Requests without a bound on what comes between. -/

/-- A pending NMI stays pending until an NMI entry (spec/60_exceptions.md R329). -/
theorem nmiPending_stable : ReadStable (fun s => s.bus.nmiPending = true) where
  dot _ h := h
  tick s h := by rw [apuTick_eq]; exact h
  access _ _ h := h
  finish s h := by
    show (s.bus.nmiPending || (s.ppu.nmiRequest && !s.bus.nmiPrev)) = true
    rw [h]; rfl
  stall _ _ h := h
  dmaStart _ h := h
  hang _ h := h
  dma := Or.inr fun _ _ h => h
  cpu _ _ h := h
  log _ _ h := h
  jam _ h := h

/-- With NMIs disabled in PPUCTRL none becomes pending (spec/62_ppu.md R458). -/
theorem nmiDisabled_stable : ReadStable (fun s => s.bus.nmiPending = false ∧ s.ppu.ctrl.getLsbD 7 = false) where
  dot s h := ⟨h.1, by rw [runDot_ctrl]; exact h.2⟩
  tick s h := by rw [apuTick_eq]; exact h
  access a s h := ⟨h.1, by
    show (ppuAfterRead a s).ctrl.getLsbD 7 = false
    rw [(ppuAfterRead_regs a s).1]; exact h.2⟩
  finish s h := ⟨by
    show (s.bus.nmiPending || (s.ppu.nmiRequest && !s.bus.nmiPrev)) = false
    unfold Ppu.nmiRequest
    rw [h.1, h.2, Bool.and_false]; rfl, h.2⟩
  stall _ _ h := h
  dmaStart _ h := h
  hang _ h := h
  dma := Or.inr fun v s h => ⟨h.1, by
    show (ppuWriteOam s.image.region v { s.ppu with ioLatch := v }).ctrl.getLsbD 7 = false
    rw [(ppuWriteOam_regs _ _ _).1]; exact h.2⟩
  cpu _ _ h := h
  log _ _ h := h
  jam _ h := h

end Sys2Proof.Machine
end

