-- ==== Sys2Proof/Laws/Orchestrator.lean ====
section
/-! SUPPORT. The host's calls: what the file-IO collaborator is handed, what a failure leaves, and what a power cycle reads back; and the
form of the frame that `ExecuteFrame` returns. -/

namespace Sys2Proof.Machine

/-! Writing an array out and reading it back. -/

theorem Mem.read_ofBytesFrom (bs : List Byte) : ∀ a n : Nat,
    (Mem.ofBytesFrom a bs).read n = if a ≤ n then bs.getD (n - a) 0 else 0 := by
  induction bs with
  | nil => intro a n; simp [Mem.ofBytesFrom, Mem.read, unlisted]
  | cons b t ih =>
    intro a n
    have tail := ih (a + 1) n
    have entry : (Mem.ofBytesFrom a (b :: t)).read n = if a = n then b else (Mem.ofBytesFrom (a + 1) t).read n := by
      rw [Mem.ofBytesFrom]
      by_cases hb : b = unlisted 8
      · rw [if_pos hb]
        split
        · rw [tail, if_neg (by omega), hb]; rfl
        · rfl
      · rw [if_neg hb]; rfl
    rw [entry, tail]
    rcases Nat.lt_trichotomy a n with h | h | h
    · rw [if_neg (by omega), if_pos (by omega), if_pos (by omega), show n - a = (n - (a + 1)) + 1 by omega, List.getD_cons_succ]
    · subst h
      simp
    · rw [if_neg (by omega), if_neg (by omega), if_neg (by omega)]

/-- The bytes of an array, read back (spec/61_bus_mapper.md R377). -/
theorem prgRamOfBlob_toBytes (m : Mem 8) {n : Nat} (h : n < 8192) : (prgRamOfBlob (m.toBytes 8192)).read n = m.read n := by
  unfold prgRamOfBlob Mem.ofBytes
  rw [List.take_of_length_le (by simp [Mem.toBytes]), Mem.read_ofBytesFrom, if_pos (Nat.zero_le n)]
  simp [Mem.toBytes, List.getD_eq_getElem?_getD, h]

/-! What a call on the collaborator leaves alone. -/

@[simp] theorem State.logIo_image (op : FileOp) (r : FileResult) (s : State) : (s.logIo op r).image = s.image := by
  cases r <;> rfl
@[simp] theorem State.logIo_cfg (op : FileOp) (r : FileResult) (s : State) : (s.logIo op r).cfg = s.cfg := by
  cases r <;> rfl
@[simp] theorem State.logIo_backups (op : FileOp) (r : FileResult) (s : State) : (s.logIo op r).backups = s.backups := by
  cases r <;> rfl
@[simp] theorem State.logIo_power (op : FileOp) (r : FileResult) (s : State) : (s.logIo op r).power = s.power := by
  cases r <;> rfl

/-! `Power` (spec/64_orchestrator.md R593, R594). -/

/-- The machine is OFF after `Power(false)`, however the write ends. -/
theorem State.powerFalse_power (r : FileResult) (s : State) : (s.powerFalse r).power = .off := by
  unfold State.powerFalse
  split
  · assumption
  · rfl

/-- A second `Power(false)` does nothing: in particular it hands over no backup. -/
theorem State.powerFalse_twice (r r' : FileResult) (s : State) : (s.powerFalse r).powerFalse r' = s.powerFalse r :=
  if_pos (State.powerFalse_power r s)

/-- With a backup due, `Power(false)` hands over the 8192 bytes of PRG-RAM; what persists is that, or nothing after a failure, which
is logged. -/
theorem State.powerFalse_backup (r : FileResult) {s : State} {b : List Byte} (h : s.batteryOut = some b) :
    (s.powerFalse r).backups = s.backups ++ [b] ∧ (s.powerFalse r).image = { s.image with blob := persisted r (some b) } ∧
    (s.powerFalse r).diag = s.diag ++ (match r with | .done => [] | .failed => [.ioFault .write]) := by
  have hp : s.power ≠ .off := by
    intro hp
    simp [State.batteryOut, hp] at h
  unfold State.powerFalse State.flushBackup
  rw [if_neg hp, h]
  cases r <;> simp [State.logIo, State.withGhostsOf, State.off, State.powerOn]

/-- Without one, it hands over nothing and the image is as it was. -/
theorem State.powerFalse_no_backup (r : FileResult) {s : State} (h : s.batteryOut = none) :
    (s.powerFalse r).backups = s.backups ∧ (s.powerFalse r).image = s.image ∧ (s.powerFalse r).diag = s.diag := by
  unfold State.powerFalse State.flushBackup
  rw [h]
  split <;> exact ⟨rfl, rfl, rfl⟩

/-- `Power(true)` with an image loaded: PRG-RAM is what the image, with the blob that was read, begins with. -/
theorem State.powerTrue_prgRam (r : FileResult) {s : State} (hp : s.power = .off) (hl : s.image.loaded = true) :
    (s.powerTrue r).power = .powered ∧ (s.powerTrue r).prgRam = (s.readBackup r).image.prgRamInit := by
  unfold State.powerTrue
  rw [if_pos (by simp [hp, hl])]
  exact ⟨rfl, rfl⟩

/-- The round trip of R377: with a battery, backup enabled and no trainer, a power cycle whose file operations succeed brings every
byte of PRG-RAM back. -/
theorem State.power_cycle_keeps {s : State} (hp : s.power ≠ .off) (hl : s.image.loaded = true) (hb : s.image.battery = true)
    (he : s.cfg.batteryBackup = true) (ht : s.image.trainer = none) {n : Nat} (hn : n < 8192) :
    ((s.powerFalse .done).powerTrue .done).prgRam.read n = s.prgRam.read n := by
  have h : s.batteryOut = some (s.prgRam.toBytes 8192) := by simp [State.batteryOut, hp, hb, he]
  have hi := (State.powerFalse_backup .done h).2.1
  rw [(State.powerTrue_prgRam .done (State.powerFalse_power .done s) (by rw [hi]; exact hl)).2]
  unfold State.readBackup
  rw [if_pos (by rw [hi]; exact hb)]
  simp only [State.logIo, hi, persisted, Image.prgRamInit, ht, hb, if_true, Option.getD_some]
  exact prgRamOfBlob_toBytes s.prgRam hn

/-- After a failed write the next `Power(true)` starts "without persisted save data" (R594). -/
theorem State.failed_write_loses {s : State} (hp : s.power ≠ .off) (hl : s.image.loaded = true) (hb : s.image.battery = true)
    (he : s.cfg.batteryBackup = true) (ht : s.image.trainer = none) (r : FileResult) (n : Nat) :
    ((s.powerFalse .failed).powerTrue r).prgRam.read n = 0 := by
  have h : s.batteryOut = some (s.prgRam.toBytes 8192) := by simp [State.batteryOut, hp, hb, he]
  have hi := (State.powerFalse_backup .failed h).2.1
  rw [(State.powerTrue_prgRam r (State.powerFalse_power .failed s) (by rw [hi]; exact hl)).2]
  unfold State.readBackup
  rw [if_pos (by rw [hi]; exact hb), State.logIo_image]
  cases r <;> simp [hi, persisted, Image.prgRamInit, ht, hb, prgRamOfBlob, Mem.ofBytes, Mem.ofBytesFrom, Mem.read, unlisted]

/-! `Load` (R592). -/

/-- A `Load` that succeeds leaves the machine OFF, and has handed over what `Power(false)` hands over. -/
theorem State.load_flushes {file : List Byte} {arg : RegionArg} {r : BlobRead} {w : FileResult} {s t : State}
    (h : s.load file arg r w = .ok t) : t.power = .off ∧ t.backups = (s.powerFalse w).backups ∧ t.cfg = s.cfg := by
  have hc : (s.powerFalse w).cfg = s.cfg := by
    unfold State.powerFalse State.flushBackup
    split
    · rfl
    · split
      · rfl
      · exact State.logIo_cfg .write w _
  unfold State.load at h
  split at h
  · cases h
  · cases h
    unfold State.readBackup
    split
    · rw [State.logIo_power, State.logIo_backups, State.logIo_cfg]
      exact ⟨rfl, rfl, hc⟩
    · exact ⟨rfl, rfl, hc⟩

/-! The frame buffer (R618; spec/62_ppu.md R497, R499). -/

@[simp] theorem rgbaBytes_length (c : BitVec 32) : (rgbaBytes c).length = 4 := rfl

@[simp] theorem fbRow_length (p : Ppu) (line n : Nat) : ∀ px, (fbRow p line n px).length = 4 * n := by
  induction n with
  | zero => exact fun _ => rfl
  | succ n ih => intro px; simp only [fbRow, List.length_append, rgbaBytes_length, ih]; omega

@[simp] theorem fbRows_length (p : Ppu) (n : Nat) : ∀ line, (fbRows p n line).length = 1024 * n := by
  induction n with
  | zero => exact fun _ => rfl
  | succ n ih => intro line; simp only [fbRows, List.length_append, fbRow_length, ih]; omega

/-- The buffer has 245760 bytes. -/
theorem frameBuffer_length (p : Ppu) : (frameBuffer p).length = 245760 := fbRows_length p 240 0

/-- Byte `j` of a pixel of a row. -/
theorem fbRow_byte (p : Ppu) (line j : Nat) (hj : j < 4) (n : Nat) : ∀ px k, k < n →
    (fbRow p line n px)[4 * k + j]? = (rgbaBytes (fbPixel p line (px + k)))[j]? := by
  induction n with
  | zero => intro px k hk; omega
  | succ n ih =>
    intro px k hk
    unfold fbRow
    cases k with
    | zero => rw [List.getElem?_append_left (by rw [rgbaBytes_length]; omega)]; simp
    | succ k =>
      rw [List.getElem?_append_right (by rw [rgbaBytes_length]; omega), rgbaBytes_length,
        show 4 * (k + 1) + j - 4 = 4 * k + j by omega, ih (px + 1) k (by omega), Nat.add_right_comm px 1 k, Nat.add_assoc]

/-- Byte `m` of a row of rows. -/
theorem fbRows_byte (p : Ppu) (m : Nat) (hm : m < 1024) (n : Nat) : ∀ line k, k < n →
    (fbRows p n line)[1024 * k + m]? = (fbRow p (line + k) 256 0)[m]? := by
  induction n with
  | zero => intro line k hk; omega
  | succ n ih =>
    intro line k hk
    unfold fbRows
    cases k with
    | zero => rw [List.getElem?_append_left (by rw [fbRow_length]; omega)]; simp
    | succ k =>
      rw [List.getElem?_append_right (by rw [fbRow_length]; omega), fbRow_length,
        show 1024 * (k + 1) + m - 4 * 256 = 1024 * k + m by omega, ih (line + 1) k (by omega), Nat.add_right_comm line 1 k,
        Nat.add_assoc]

/-- Byte `j` of the pixel at row `line`, column `px`, stands at `1024 * line + 4 * px + j`. -/
theorem frameBuffer_byte (p : Ppu) {line px j : Nat} (hl : line < 240) (hp : px < 256) (hj : j < 4) :
    (frameBuffer p)[1024 * line + (4 * px + j)]? = (rgbaBytes (fbPixel p line px))[j]? := by
  unfold frameBuffer
  rw [fbRows_byte p (4 * px + j) (by omega) 240 0 line hl, fbRow_byte p _ j hj 256 0 px hp, Nat.zero_add, Nat.zero_add]

/-- A frame that ends returns the whole buffer and the samples up to the mark. -/
theorem endFrame_result (s : State) :
    (endFrame s).1 = .ok (frameBuffer s.ppu) (s.apu.audioWork.take s.audioMark) := rfl

end Sys2Proof.Machine
end

