-- ==== Sys2Proof/Laws/PerInstr.lean ====
section
/-! SUPPORT. A property of each instruction as syntax, constructor by constructor: its encoding is as long as its opcode says
(spec/30_encoding.md R127). -/

namespace Sys2Proof.Laws.EncodedLength

/-- The encoding has the length that the opcode byte alone gives. -/
def Statement (i : Instr) : Prop := (encode i).length = instrLength i.opcode

theorem oraIzx (z : Byte) : Statement (.oraIzx z) := show 2 = instrLength 0x01 from rfl

theorem sloIzx (z : Byte) : Statement (.sloIzx z) := show 2 = instrLength 0x03 from rfl

theorem nopZp04 (z : Byte) : Statement (.nopZp04 z) := show 2 = instrLength 0x04 from rfl

theorem oraZp (z : Byte) : Statement (.oraZp z) := show 2 = instrLength 0x05 from rfl

theorem aslZp (z : Byte) : Statement (.aslZp z) := show 2 = instrLength 0x06 from rfl

theorem sloZp (z : Byte) : Statement (.sloZp z) := show 2 = instrLength 0x07 from rfl

theorem oraImm (d : Byte) : Statement (.oraImm d) := show 2 = instrLength 0x09 from rfl

theorem ancImm0B (d : Byte) : Statement (.ancImm0B d) := show 2 = instrLength 0x0B from rfl

theorem nopAbs0C (l h : Byte) : Statement (.nopAbs0C l h) := show 3 = instrLength 0x0C from rfl

theorem oraAbs (l h : Byte) : Statement (.oraAbs l h) := show 3 = instrLength 0x0D from rfl

theorem aslAbs (l h : Byte) : Statement (.aslAbs l h) := show 3 = instrLength 0x0E from rfl

theorem sloAbs (l h : Byte) : Statement (.sloAbs l h) := show 3 = instrLength 0x0F from rfl

theorem bplRel (o : Byte) : Statement (.bplRel o) := show 2 = instrLength 0x10 from rfl

theorem oraIzy (z : Byte) : Statement (.oraIzy z) := show 2 = instrLength 0x11 from rfl

theorem sloIzy (z : Byte) : Statement (.sloIzy z) := show 2 = instrLength 0x13 from rfl

theorem nopZpx14 (z : Byte) : Statement (.nopZpx14 z) := show 2 = instrLength 0x14 from rfl

theorem oraZpx (z : Byte) : Statement (.oraZpx z) := show 2 = instrLength 0x15 from rfl

theorem aslZpx (z : Byte) : Statement (.aslZpx z) := show 2 = instrLength 0x16 from rfl

theorem sloZpx (z : Byte) : Statement (.sloZpx z) := show 2 = instrLength 0x17 from rfl

theorem oraAby (l h : Byte) : Statement (.oraAby l h) := show 3 = instrLength 0x19 from rfl

theorem sloAby (l h : Byte) : Statement (.sloAby l h) := show 3 = instrLength 0x1B from rfl

theorem nopAbx1C (l h : Byte) : Statement (.nopAbx1C l h) := show 3 = instrLength 0x1C from rfl

theorem oraAbx (l h : Byte) : Statement (.oraAbx l h) := show 3 = instrLength 0x1D from rfl

theorem aslAbx (l h : Byte) : Statement (.aslAbx l h) := show 3 = instrLength 0x1E from rfl

theorem sloAbx (l h : Byte) : Statement (.sloAbx l h) := show 3 = instrLength 0x1F from rfl

theorem jsrAbs (l h : Byte) : Statement (.jsrAbs l h) := show 3 = instrLength 0x20 from rfl

theorem andIzx (z : Byte) : Statement (.andIzx z) := show 2 = instrLength 0x21 from rfl

theorem rlaIzx (z : Byte) : Statement (.rlaIzx z) := show 2 = instrLength 0x23 from rfl

theorem bitZp (z : Byte) : Statement (.bitZp z) := show 2 = instrLength 0x24 from rfl

theorem andZp (z : Byte) : Statement (.andZp z) := show 2 = instrLength 0x25 from rfl

theorem rolZp (z : Byte) : Statement (.rolZp z) := show 2 = instrLength 0x26 from rfl

theorem rlaZp (z : Byte) : Statement (.rlaZp z) := show 2 = instrLength 0x27 from rfl

theorem andImm (d : Byte) : Statement (.andImm d) := show 2 = instrLength 0x29 from rfl

theorem ancImm2B (d : Byte) : Statement (.ancImm2B d) := show 2 = instrLength 0x2B from rfl

theorem bitAbs (l h : Byte) : Statement (.bitAbs l h) := show 3 = instrLength 0x2C from rfl

theorem andAbs (l h : Byte) : Statement (.andAbs l h) := show 3 = instrLength 0x2D from rfl

theorem rolAbs (l h : Byte) : Statement (.rolAbs l h) := show 3 = instrLength 0x2E from rfl

theorem rlaAbs (l h : Byte) : Statement (.rlaAbs l h) := show 3 = instrLength 0x2F from rfl

theorem bmiRel (o : Byte) : Statement (.bmiRel o) := show 2 = instrLength 0x30 from rfl

theorem andIzy (z : Byte) : Statement (.andIzy z) := show 2 = instrLength 0x31 from rfl

theorem rlaIzy (z : Byte) : Statement (.rlaIzy z) := show 2 = instrLength 0x33 from rfl

theorem nopZpx34 (z : Byte) : Statement (.nopZpx34 z) := show 2 = instrLength 0x34 from rfl

theorem andZpx (z : Byte) : Statement (.andZpx z) := show 2 = instrLength 0x35 from rfl

theorem rolZpx (z : Byte) : Statement (.rolZpx z) := show 2 = instrLength 0x36 from rfl

theorem rlaZpx (z : Byte) : Statement (.rlaZpx z) := show 2 = instrLength 0x37 from rfl

theorem andAby (l h : Byte) : Statement (.andAby l h) := show 3 = instrLength 0x39 from rfl

theorem rlaAby (l h : Byte) : Statement (.rlaAby l h) := show 3 = instrLength 0x3B from rfl

theorem nopAbx3C (l h : Byte) : Statement (.nopAbx3C l h) := show 3 = instrLength 0x3C from rfl

theorem andAbx (l h : Byte) : Statement (.andAbx l h) := show 3 = instrLength 0x3D from rfl

theorem rolAbx (l h : Byte) : Statement (.rolAbx l h) := show 3 = instrLength 0x3E from rfl

theorem rlaAbx (l h : Byte) : Statement (.rlaAbx l h) := show 3 = instrLength 0x3F from rfl

theorem eorIzx (z : Byte) : Statement (.eorIzx z) := show 2 = instrLength 0x41 from rfl

theorem sreIzx (z : Byte) : Statement (.sreIzx z) := show 2 = instrLength 0x43 from rfl

theorem nopZp44 (z : Byte) : Statement (.nopZp44 z) := show 2 = instrLength 0x44 from rfl

theorem eorZp (z : Byte) : Statement (.eorZp z) := show 2 = instrLength 0x45 from rfl

theorem lsrZp (z : Byte) : Statement (.lsrZp z) := show 2 = instrLength 0x46 from rfl

theorem sreZp (z : Byte) : Statement (.sreZp z) := show 2 = instrLength 0x47 from rfl

theorem eorImm (d : Byte) : Statement (.eorImm d) := show 2 = instrLength 0x49 from rfl

theorem alrImm (d : Byte) : Statement (.alrImm d) := show 2 = instrLength 0x4B from rfl

theorem jmpAbs (l h : Byte) : Statement (.jmpAbs l h) := show 3 = instrLength 0x4C from rfl

theorem eorAbs (l h : Byte) : Statement (.eorAbs l h) := show 3 = instrLength 0x4D from rfl

theorem lsrAbs (l h : Byte) : Statement (.lsrAbs l h) := show 3 = instrLength 0x4E from rfl

theorem sreAbs (l h : Byte) : Statement (.sreAbs l h) := show 3 = instrLength 0x4F from rfl

theorem bvcRel (o : Byte) : Statement (.bvcRel o) := show 2 = instrLength 0x50 from rfl

theorem eorIzy (z : Byte) : Statement (.eorIzy z) := show 2 = instrLength 0x51 from rfl

theorem sreIzy (z : Byte) : Statement (.sreIzy z) := show 2 = instrLength 0x53 from rfl

theorem nopZpx54 (z : Byte) : Statement (.nopZpx54 z) := show 2 = instrLength 0x54 from rfl

theorem eorZpx (z : Byte) : Statement (.eorZpx z) := show 2 = instrLength 0x55 from rfl

theorem lsrZpx (z : Byte) : Statement (.lsrZpx z) := show 2 = instrLength 0x56 from rfl

theorem sreZpx (z : Byte) : Statement (.sreZpx z) := show 2 = instrLength 0x57 from rfl

theorem eorAby (l h : Byte) : Statement (.eorAby l h) := show 3 = instrLength 0x59 from rfl

theorem sreAby (l h : Byte) : Statement (.sreAby l h) := show 3 = instrLength 0x5B from rfl

theorem nopAbx5C (l h : Byte) : Statement (.nopAbx5C l h) := show 3 = instrLength 0x5C from rfl

theorem eorAbx (l h : Byte) : Statement (.eorAbx l h) := show 3 = instrLength 0x5D from rfl

theorem lsrAbx (l h : Byte) : Statement (.lsrAbx l h) := show 3 = instrLength 0x5E from rfl

theorem sreAbx (l h : Byte) : Statement (.sreAbx l h) := show 3 = instrLength 0x5F from rfl

theorem adcIzx (z : Byte) : Statement (.adcIzx z) := show 2 = instrLength 0x61 from rfl

theorem rraIzx (z : Byte) : Statement (.rraIzx z) := show 2 = instrLength 0x63 from rfl

theorem nopZp64 (z : Byte) : Statement (.nopZp64 z) := show 2 = instrLength 0x64 from rfl

theorem adcZp (z : Byte) : Statement (.adcZp z) := show 2 = instrLength 0x65 from rfl

theorem rorZp (z : Byte) : Statement (.rorZp z) := show 2 = instrLength 0x66 from rfl

theorem rraZp (z : Byte) : Statement (.rraZp z) := show 2 = instrLength 0x67 from rfl

theorem adcImm (d : Byte) : Statement (.adcImm d) := show 2 = instrLength 0x69 from rfl

theorem arrImm (d : Byte) : Statement (.arrImm d) := show 2 = instrLength 0x6B from rfl

theorem jmpInd (l h : Byte) : Statement (.jmpInd l h) := show 3 = instrLength 0x6C from rfl

theorem adcAbs (l h : Byte) : Statement (.adcAbs l h) := show 3 = instrLength 0x6D from rfl

theorem rorAbs (l h : Byte) : Statement (.rorAbs l h) := show 3 = instrLength 0x6E from rfl

theorem rraAbs (l h : Byte) : Statement (.rraAbs l h) := show 3 = instrLength 0x6F from rfl

theorem bvsRel (o : Byte) : Statement (.bvsRel o) := show 2 = instrLength 0x70 from rfl

theorem adcIzy (z : Byte) : Statement (.adcIzy z) := show 2 = instrLength 0x71 from rfl

theorem rraIzy (z : Byte) : Statement (.rraIzy z) := show 2 = instrLength 0x73 from rfl

theorem nopZpx74 (z : Byte) : Statement (.nopZpx74 z) := show 2 = instrLength 0x74 from rfl

theorem adcZpx (z : Byte) : Statement (.adcZpx z) := show 2 = instrLength 0x75 from rfl

theorem rorZpx (z : Byte) : Statement (.rorZpx z) := show 2 = instrLength 0x76 from rfl

theorem rraZpx (z : Byte) : Statement (.rraZpx z) := show 2 = instrLength 0x77 from rfl

theorem adcAby (l h : Byte) : Statement (.adcAby l h) := show 3 = instrLength 0x79 from rfl

theorem rraAby (l h : Byte) : Statement (.rraAby l h) := show 3 = instrLength 0x7B from rfl

theorem nopAbx7C (l h : Byte) : Statement (.nopAbx7C l h) := show 3 = instrLength 0x7C from rfl

theorem adcAbx (l h : Byte) : Statement (.adcAbx l h) := show 3 = instrLength 0x7D from rfl

theorem rorAbx (l h : Byte) : Statement (.rorAbx l h) := show 3 = instrLength 0x7E from rfl

theorem rraAbx (l h : Byte) : Statement (.rraAbx l h) := show 3 = instrLength 0x7F from rfl

theorem nopImm80 (d : Byte) : Statement (.nopImm80 d) := show 2 = instrLength 0x80 from rfl

theorem staIzx (z : Byte) : Statement (.staIzx z) := show 2 = instrLength 0x81 from rfl

theorem nopImm82 (d : Byte) : Statement (.nopImm82 d) := show 2 = instrLength 0x82 from rfl

theorem saxIzx (z : Byte) : Statement (.saxIzx z) := show 2 = instrLength 0x83 from rfl

theorem styZp (z : Byte) : Statement (.styZp z) := show 2 = instrLength 0x84 from rfl

theorem staZp (z : Byte) : Statement (.staZp z) := show 2 = instrLength 0x85 from rfl

theorem stxZp (z : Byte) : Statement (.stxZp z) := show 2 = instrLength 0x86 from rfl

theorem saxZp (z : Byte) : Statement (.saxZp z) := show 2 = instrLength 0x87 from rfl

theorem nopImm89 (d : Byte) : Statement (.nopImm89 d) := show 2 = instrLength 0x89 from rfl

theorem xaaImm (d : Byte) : Statement (.xaaImm d) := show 2 = instrLength 0x8B from rfl

theorem styAbs (l h : Byte) : Statement (.styAbs l h) := show 3 = instrLength 0x8C from rfl

theorem staAbs (l h : Byte) : Statement (.staAbs l h) := show 3 = instrLength 0x8D from rfl

theorem stxAbs (l h : Byte) : Statement (.stxAbs l h) := show 3 = instrLength 0x8E from rfl

theorem saxAbs (l h : Byte) : Statement (.saxAbs l h) := show 3 = instrLength 0x8F from rfl

theorem bccRel (o : Byte) : Statement (.bccRel o) := show 2 = instrLength 0x90 from rfl

theorem staIzy (z : Byte) : Statement (.staIzy z) := show 2 = instrLength 0x91 from rfl

theorem shaIzy (z : Byte) : Statement (.shaIzy z) := show 2 = instrLength 0x93 from rfl

theorem styZpx (z : Byte) : Statement (.styZpx z) := show 2 = instrLength 0x94 from rfl

theorem staZpx (z : Byte) : Statement (.staZpx z) := show 2 = instrLength 0x95 from rfl

theorem stxZpy (z : Byte) : Statement (.stxZpy z) := show 2 = instrLength 0x96 from rfl

theorem saxZpy (z : Byte) : Statement (.saxZpy z) := show 2 = instrLength 0x97 from rfl

theorem staAby (l h : Byte) : Statement (.staAby l h) := show 3 = instrLength 0x99 from rfl

theorem tasAby (l h : Byte) : Statement (.tasAby l h) := show 3 = instrLength 0x9B from rfl

theorem shyAbx (l h : Byte) : Statement (.shyAbx l h) := show 3 = instrLength 0x9C from rfl

theorem staAbx (l h : Byte) : Statement (.staAbx l h) := show 3 = instrLength 0x9D from rfl

theorem shxAby (l h : Byte) : Statement (.shxAby l h) := show 3 = instrLength 0x9E from rfl

theorem shaAby (l h : Byte) : Statement (.shaAby l h) := show 3 = instrLength 0x9F from rfl

theorem ldyImm (d : Byte) : Statement (.ldyImm d) := show 2 = instrLength 0xA0 from rfl

theorem ldaIzx (z : Byte) : Statement (.ldaIzx z) := show 2 = instrLength 0xA1 from rfl

theorem ldxImm (d : Byte) : Statement (.ldxImm d) := show 2 = instrLength 0xA2 from rfl

theorem laxIzx (z : Byte) : Statement (.laxIzx z) := show 2 = instrLength 0xA3 from rfl

theorem ldyZp (z : Byte) : Statement (.ldyZp z) := show 2 = instrLength 0xA4 from rfl

theorem ldaZp (z : Byte) : Statement (.ldaZp z) := show 2 = instrLength 0xA5 from rfl

theorem ldxZp (z : Byte) : Statement (.ldxZp z) := show 2 = instrLength 0xA6 from rfl

theorem laxZp (z : Byte) : Statement (.laxZp z) := show 2 = instrLength 0xA7 from rfl

theorem ldaImm (d : Byte) : Statement (.ldaImm d) := show 2 = instrLength 0xA9 from rfl

theorem lxaImm (d : Byte) : Statement (.lxaImm d) := show 2 = instrLength 0xAB from rfl

theorem ldyAbs (l h : Byte) : Statement (.ldyAbs l h) := show 3 = instrLength 0xAC from rfl

theorem ldaAbs (l h : Byte) : Statement (.ldaAbs l h) := show 3 = instrLength 0xAD from rfl

theorem ldxAbs (l h : Byte) : Statement (.ldxAbs l h) := show 3 = instrLength 0xAE from rfl

theorem laxAbs (l h : Byte) : Statement (.laxAbs l h) := show 3 = instrLength 0xAF from rfl

theorem bcsRel (o : Byte) : Statement (.bcsRel o) := show 2 = instrLength 0xB0 from rfl

theorem ldaIzy (z : Byte) : Statement (.ldaIzy z) := show 2 = instrLength 0xB1 from rfl

theorem laxIzy (z : Byte) : Statement (.laxIzy z) := show 2 = instrLength 0xB3 from rfl

theorem ldyZpx (z : Byte) : Statement (.ldyZpx z) := show 2 = instrLength 0xB4 from rfl

theorem ldaZpx (z : Byte) : Statement (.ldaZpx z) := show 2 = instrLength 0xB5 from rfl

theorem ldxZpy (z : Byte) : Statement (.ldxZpy z) := show 2 = instrLength 0xB6 from rfl

theorem laxZpy (z : Byte) : Statement (.laxZpy z) := show 2 = instrLength 0xB7 from rfl

theorem ldaAby (l h : Byte) : Statement (.ldaAby l h) := show 3 = instrLength 0xB9 from rfl

theorem lasAby (l h : Byte) : Statement (.lasAby l h) := show 3 = instrLength 0xBB from rfl

theorem ldyAbx (l h : Byte) : Statement (.ldyAbx l h) := show 3 = instrLength 0xBC from rfl

theorem ldaAbx (l h : Byte) : Statement (.ldaAbx l h) := show 3 = instrLength 0xBD from rfl

theorem ldxAby (l h : Byte) : Statement (.ldxAby l h) := show 3 = instrLength 0xBE from rfl

theorem laxAby (l h : Byte) : Statement (.laxAby l h) := show 3 = instrLength 0xBF from rfl

theorem cpyImm (d : Byte) : Statement (.cpyImm d) := show 2 = instrLength 0xC0 from rfl

theorem cmpIzx (z : Byte) : Statement (.cmpIzx z) := show 2 = instrLength 0xC1 from rfl

theorem nopImmC2 (d : Byte) : Statement (.nopImmC2 d) := show 2 = instrLength 0xC2 from rfl

theorem dcpIzx (z : Byte) : Statement (.dcpIzx z) := show 2 = instrLength 0xC3 from rfl

theorem cpyZp (z : Byte) : Statement (.cpyZp z) := show 2 = instrLength 0xC4 from rfl

theorem cmpZp (z : Byte) : Statement (.cmpZp z) := show 2 = instrLength 0xC5 from rfl

theorem decZp (z : Byte) : Statement (.decZp z) := show 2 = instrLength 0xC6 from rfl

theorem dcpZp (z : Byte) : Statement (.dcpZp z) := show 2 = instrLength 0xC7 from rfl

theorem cmpImm (d : Byte) : Statement (.cmpImm d) := show 2 = instrLength 0xC9 from rfl

theorem axsImm (d : Byte) : Statement (.axsImm d) := show 2 = instrLength 0xCB from rfl

theorem cpyAbs (l h : Byte) : Statement (.cpyAbs l h) := show 3 = instrLength 0xCC from rfl

theorem cmpAbs (l h : Byte) : Statement (.cmpAbs l h) := show 3 = instrLength 0xCD from rfl

theorem decAbs (l h : Byte) : Statement (.decAbs l h) := show 3 = instrLength 0xCE from rfl

theorem dcpAbs (l h : Byte) : Statement (.dcpAbs l h) := show 3 = instrLength 0xCF from rfl

theorem bneRel (o : Byte) : Statement (.bneRel o) := show 2 = instrLength 0xD0 from rfl

theorem cmpIzy (z : Byte) : Statement (.cmpIzy z) := show 2 = instrLength 0xD1 from rfl

theorem dcpIzy (z : Byte) : Statement (.dcpIzy z) := show 2 = instrLength 0xD3 from rfl

theorem nopZpxD4 (z : Byte) : Statement (.nopZpxD4 z) := show 2 = instrLength 0xD4 from rfl

theorem cmpZpx (z : Byte) : Statement (.cmpZpx z) := show 2 = instrLength 0xD5 from rfl

theorem decZpx (z : Byte) : Statement (.decZpx z) := show 2 = instrLength 0xD6 from rfl

theorem dcpZpx (z : Byte) : Statement (.dcpZpx z) := show 2 = instrLength 0xD7 from rfl

theorem cmpAby (l h : Byte) : Statement (.cmpAby l h) := show 3 = instrLength 0xD9 from rfl

theorem dcpAby (l h : Byte) : Statement (.dcpAby l h) := show 3 = instrLength 0xDB from rfl

theorem nopAbxDC (l h : Byte) : Statement (.nopAbxDC l h) := show 3 = instrLength 0xDC from rfl

theorem cmpAbx (l h : Byte) : Statement (.cmpAbx l h) := show 3 = instrLength 0xDD from rfl

theorem decAbx (l h : Byte) : Statement (.decAbx l h) := show 3 = instrLength 0xDE from rfl

theorem dcpAbx (l h : Byte) : Statement (.dcpAbx l h) := show 3 = instrLength 0xDF from rfl

theorem cpxImm (d : Byte) : Statement (.cpxImm d) := show 2 = instrLength 0xE0 from rfl

theorem sbcIzx (z : Byte) : Statement (.sbcIzx z) := show 2 = instrLength 0xE1 from rfl

theorem nopImmE2 (d : Byte) : Statement (.nopImmE2 d) := show 2 = instrLength 0xE2 from rfl

theorem iscIzx (z : Byte) : Statement (.iscIzx z) := show 2 = instrLength 0xE3 from rfl

theorem cpxZp (z : Byte) : Statement (.cpxZp z) := show 2 = instrLength 0xE4 from rfl

theorem sbcZp (z : Byte) : Statement (.sbcZp z) := show 2 = instrLength 0xE5 from rfl

theorem incZp (z : Byte) : Statement (.incZp z) := show 2 = instrLength 0xE6 from rfl

theorem iscZp (z : Byte) : Statement (.iscZp z) := show 2 = instrLength 0xE7 from rfl

theorem sbcImm (d : Byte) : Statement (.sbcImm d) := show 2 = instrLength 0xE9 from rfl

theorem sbcImmEB (d : Byte) : Statement (.sbcImmEB d) := show 2 = instrLength 0xEB from rfl

theorem cpxAbs (l h : Byte) : Statement (.cpxAbs l h) := show 3 = instrLength 0xEC from rfl

theorem sbcAbs (l h : Byte) : Statement (.sbcAbs l h) := show 3 = instrLength 0xED from rfl

theorem incAbs (l h : Byte) : Statement (.incAbs l h) := show 3 = instrLength 0xEE from rfl

theorem iscAbs (l h : Byte) : Statement (.iscAbs l h) := show 3 = instrLength 0xEF from rfl

theorem beqRel (o : Byte) : Statement (.beqRel o) := show 2 = instrLength 0xF0 from rfl

theorem sbcIzy (z : Byte) : Statement (.sbcIzy z) := show 2 = instrLength 0xF1 from rfl

theorem iscIzy (z : Byte) : Statement (.iscIzy z) := show 2 = instrLength 0xF3 from rfl

theorem nopZpxF4 (z : Byte) : Statement (.nopZpxF4 z) := show 2 = instrLength 0xF4 from rfl

theorem sbcZpx (z : Byte) : Statement (.sbcZpx z) := show 2 = instrLength 0xF5 from rfl

theorem incZpx (z : Byte) : Statement (.incZpx z) := show 2 = instrLength 0xF6 from rfl

theorem iscZpx (z : Byte) : Statement (.iscZpx z) := show 2 = instrLength 0xF7 from rfl

theorem sbcAby (l h : Byte) : Statement (.sbcAby l h) := show 3 = instrLength 0xF9 from rfl

theorem iscAby (l h : Byte) : Statement (.iscAby l h) := show 3 = instrLength 0xFB from rfl

theorem nopAbxFC (l h : Byte) : Statement (.nopAbxFC l h) := show 3 = instrLength 0xFC from rfl

theorem sbcAbx (l h : Byte) : Statement (.sbcAbx l h) := show 3 = instrLength 0xFD from rfl

theorem incAbx (l h : Byte) : Statement (.incAbx l h) := show 3 = instrLength 0xFE from rfl

theorem iscAbx (l h : Byte) : Statement (.iscAbx l h) := show 3 = instrLength 0xFF from rfl

theorem brk : Statement .brk := show 1 = instrLength 0x00 from rfl

theorem jam02 : Statement .jam02 := show 1 = instrLength 0x02 from rfl

theorem php : Statement .php := show 1 = instrLength 0x08 from rfl

theorem aslAcc : Statement .aslAcc := show 1 = instrLength 0x0A from rfl

theorem jam12 : Statement .jam12 := show 1 = instrLength 0x12 from rfl

theorem clc : Statement .clc := show 1 = instrLength 0x18 from rfl

theorem nop1A : Statement .nop1A := show 1 = instrLength 0x1A from rfl

theorem jam22 : Statement .jam22 := show 1 = instrLength 0x22 from rfl

theorem plp : Statement .plp := show 1 = instrLength 0x28 from rfl

theorem rolAcc : Statement .rolAcc := show 1 = instrLength 0x2A from rfl

theorem jam32 : Statement .jam32 := show 1 = instrLength 0x32 from rfl

theorem sec : Statement .sec := show 1 = instrLength 0x38 from rfl

theorem nop3A : Statement .nop3A := show 1 = instrLength 0x3A from rfl

theorem rti : Statement .rti := show 1 = instrLength 0x40 from rfl

theorem jam42 : Statement .jam42 := show 1 = instrLength 0x42 from rfl

theorem pha : Statement .pha := show 1 = instrLength 0x48 from rfl

theorem lsrAcc : Statement .lsrAcc := show 1 = instrLength 0x4A from rfl

theorem jam52 : Statement .jam52 := show 1 = instrLength 0x52 from rfl

theorem cli : Statement .cli := show 1 = instrLength 0x58 from rfl

theorem nop5A : Statement .nop5A := show 1 = instrLength 0x5A from rfl

theorem rts : Statement .rts := show 1 = instrLength 0x60 from rfl

theorem jam62 : Statement .jam62 := show 1 = instrLength 0x62 from rfl

theorem pla : Statement .pla := show 1 = instrLength 0x68 from rfl

theorem rorAcc : Statement .rorAcc := show 1 = instrLength 0x6A from rfl

theorem jam72 : Statement .jam72 := show 1 = instrLength 0x72 from rfl

theorem sei : Statement .sei := show 1 = instrLength 0x78 from rfl

theorem nop7A : Statement .nop7A := show 1 = instrLength 0x7A from rfl

theorem dey : Statement .dey := show 1 = instrLength 0x88 from rfl

theorem txa : Statement .txa := show 1 = instrLength 0x8A from rfl

theorem jam92 : Statement .jam92 := show 1 = instrLength 0x92 from rfl

theorem tya : Statement .tya := show 1 = instrLength 0x98 from rfl

theorem txs : Statement .txs := show 1 = instrLength 0x9A from rfl

theorem tay : Statement .tay := show 1 = instrLength 0xA8 from rfl

theorem tax : Statement .tax := show 1 = instrLength 0xAA from rfl

theorem jamB2 : Statement .jamB2 := show 1 = instrLength 0xB2 from rfl

theorem clv : Statement .clv := show 1 = instrLength 0xB8 from rfl

theorem tsx : Statement .tsx := show 1 = instrLength 0xBA from rfl

theorem iny : Statement .iny := show 1 = instrLength 0xC8 from rfl

theorem dex : Statement .dex := show 1 = instrLength 0xCA from rfl

theorem jamD2 : Statement .jamD2 := show 1 = instrLength 0xD2 from rfl

theorem cld : Statement .cld := show 1 = instrLength 0xD8 from rfl

theorem nopDA : Statement .nopDA := show 1 = instrLength 0xDA from rfl

theorem inx : Statement .inx := show 1 = instrLength 0xE8 from rfl

theorem nop : Statement .nop := show 1 = instrLength 0xEA from rfl

theorem jamF2 : Statement .jamF2 := show 1 = instrLength 0xF2 from rfl

theorem sed : Statement .sed := show 1 = instrLength 0xF8 from rfl

theorem nopFA : Statement .nopFA := show 1 = instrLength 0xFA from rfl

end Sys2Proof.Laws.EncodedLength
end

