-- ==== Sys2Proof/WellFormed.lean ====
section
/-! DEFINITION. The side conditions of the syntax and of the configuration. -/

namespace Sys2Proof

/-- Every instruction term is well formed: an operand is a whole byte, whose width its type carries, and "No encoding traps":
every value of every operand byte is a legal operand (spec/30_encoding.md R120, R123, R126). -/
def Instr.wf (_ : Instr) : Bool := true

/-- `PCM_SCALE` is at most 32767 (spec/00_scope.md R6). -/
def Params.pcmScaleWf (p : Params) : Bool := p.pcmScale ≤ 32767

/-- `SAMPLE_RATE` is "a positive integer below the CPU rate" (spec/63_apu.md R574). -/
def Params.sampleRateWf (r : Region) (p : Params) : Bool :=
  0 < p.sampleRate && p.sampleRate * r.cpuDiv < r.masterHz

/-- `RAM_INIT` is a function of an 11-bit address, held in canonical form (R6; spec/10_state.md R55). -/
def Params.ramInitWf (p : Params) : Bool := p.ramInit.wf && p.ramInit.all (fun e => e.1 < 2048)

/-- A configuration the spec admits. -/
def Params.wf (r : Region) (p : Params) : Bool := p.pcmScaleWf && p.sampleRateWf r && p.ramInitWf

end Sys2Proof
end

