-- ==== Sys2Proof/Tests/Slice0.lean ====
section
/-! SUPPORT. The package's own tests: ill-formed configurations that WellFormed refuses, words written out from the spec's encodings,
single steps from the spec's vectors (spec/95_test_vectors.md; the theorem's name ends in the vector's number), and a witness for
the hypotheses of each statement that has any. -/

namespace Sys2Proof.Tests

open Sys2Proof.Machine

set_option Elab.async false

/-! WellFormed. -/

/-- The default configuration is well formed in both regions. -/
theorem test_params_default_wf : Params.default.wf .ntsc = true ∧ Params.default.wf .pal = true := by decide +kernel

/-- R6: PCM_SCALE 32768 is refused. -/
theorem test_pcm_scale_too_large : ({ Params.default with pcmScale := 32768 } : Params).wf .ntsc = false := by decide +kernel

/-- R574: a sample rate of 0 is refused, and one at the CPU rate. -/
theorem test_sample_rate_ill_formed : ({ Params.default with sampleRate := 0 } : Params).wf .ntsc = false ∧
    ({ Params.default with sampleRate := 1789773 } : Params).wf .pal = false := by decide +kernel

/-- R6: RAM_INIT with an address of 12 bits, with an entry that reads as an unlisted one, and out of order, is refused. -/
theorem test_ram_init_ill_formed : ({ Params.default with ramInit := [(2048, 1)] } : Params).wf .ntsc = false ∧
    ({ Params.default with ramInit := [(5, 0)] } : Params).wf .ntsc = false ∧
    ({ Params.default with ramInit := [(6, 1), (5, 1)] } : Params).wf .ntsc = false := by decide +kernel

/-- R126: no operand value is ill formed. -/
theorem test_instr_wf : (Instr.ldaAbx 0xFF 0xFF).wf = true ∧ Instr.jam02.wf = true := by decide +kernel

/-! Decoding: words written out from R125, the first byte lowest. -/

/-- Loads, stores and transfers (spec/40_load_store_transfer.md). -/
theorem test_decode_load_store : decodeTableWord 16 0b00010000_10100001 = some (.ldaIzx 0x10) ∧
    decodeTableWord 16 0x20B6 = some (.ldxZpy 0x20) ∧ decodeTableWord 24 0x1234BC = some (.ldyAbx 0x34 0x12) ∧
    decodeTableWord 16 0x4091 = some (.staIzy 0x40) ∧ decodeTableWord 16 0x4096 = some (.stxZpy 0x40) ∧
    decodeTableWord 24 0x00028C = some (.styAbs 0x02 0x00) ∧ decodeTableWord 8 0xAA = some .tax ∧
    decodeTableWord 8 0xA8 = some .tay ∧ decodeTableWord 8 0xBA = some .tsx ∧ decodeTableWord 8 0x8A = some .txa ∧
    decodeTableWord 8 0x9A = some .txs ∧ decodeTableWord 8 0x98 = some .tya := by decide +kernel

/-- The stack (spec/41_stack.md). -/
theorem test_decode_stack : decodeTableWord 8 0b01001000 = some .pha ∧ decodeTableWord 8 0b00001000 = some .php ∧
    decodeTableWord 8 0b01101000 = some .pla ∧ decodeTableWord 8 0b00101000 = some .plp := by decide +kernel

/-- Arithmetic and logic (spec/42_arithmetic_logic.md). -/
theorem test_decode_arith : decodeTableWord 16 0b01111111_01101001 = some (.adcImm 0x7F) ∧
    decodeTableWord 16 0x05F1 = some (.sbcIzy 0x05) ∧ decodeTableWord 24 0x123439 = some (.andAby 0x34 0x12) ∧
    decodeTableWord 16 0x0915 = some (.oraZpx 0x09) ∧ decodeTableWord 16 0x0945 = some (.eorZp 0x09) ∧
    decodeTableWord 16 0x80C9 = some (.cmpImm 0x80) ∧ decodeTableWord 24 0x0300EC = some (.cpxAbs 0x00 0x03) ∧
    decodeTableWord 16 0x33C4 = some (.cpyZp 0x33) ∧ decodeTableWord 24 0x20022C = some (.bitAbs 0x02 0x20) := by
  decide +kernel

/-- Increments and shifts (spec/43_incdec_shift.md). -/
theorem test_decode_modify : decodeTableWord 16 0b01000000_11100110 = some (.incZp 0x40) ∧
    decodeTableWord 24 0x0200DE = some (.decAbx 0x00 0x02) ∧ decodeTableWord 8 0xE8 = some .inx ∧
    decodeTableWord 8 0x88 = some .dey ∧ decodeTableWord 8 0x0A = some .aslAcc ∧ decodeTableWord 16 0x1156 = some (.lsrZpx 0x11) ∧
    decodeTableWord 24 0x03002E = some (.rolAbs 0x00 0x03) ∧ decodeTableWord 8 0x6A = some .rorAcc := by decide +kernel

/-- Control transfer (spec/44_control_transfer.md). -/
theorem test_decode_control : decodeTableWord 24 0b00000010_11111111_01101100 = some (.jmpInd 0xFF 0x02) ∧
    decodeTableWord 24 0x80004C = some (.jmpAbs 0x00 0x80) ∧ decodeTableWord 24 0x123420 = some (.jsrAbs 0x34 0x12) ∧
    decodeTableWord 8 0x60 = some .rts ∧ decodeTableWord 16 0xFE90 = some (.bccRel 0xFE) ∧
    decodeTableWord 16 0x7FF0 = some (.beqRel 0x7F) := by decide +kernel

/-- Flags and system (spec/45_flags_system.md). -/
theorem test_decode_system : decodeTableWord 8 0b00011000 = some .clc ∧ decodeTableWord 8 0xF8 = some .sed ∧
    decodeTableWord 8 0x78 = some .sei ∧ decodeTableWord 8 0xB8 = some .clv ∧ decodeTableWord 8 0xEA = some .nop ∧
    decodeTableWord 8 0x00 = some .brk ∧ decodeTableWord 8 0x40 = some .rti := by decide +kernel

/-- The unofficial opcodes (spec/46_unofficial.md). -/
theorem test_decode_unofficial : decodeTableWord 16 0b00100000_00000111 = some (.sloZp 0x20) ∧
    decodeTableWord 24 0x12343B = some (.rlaAby 0x34 0x12) ∧ decodeTableWord 16 0x0143 = some (.sreIzx 0x01) ∧
    decodeTableWord 24 0x02007F = some (.rraAbx 0x00 0x02) ∧ decodeTableWord 16 0x4097 = some (.saxZpy 0x40) ∧
    decodeTableWord 16 0x40B3 = some (.laxIzy 0x40) ∧ decodeTableWord 16 0x0B0B = some (.ancImm0B 0x0B) ∧
    decodeTableWord 16 0xEBEB = some (.sbcImmEB 0xEB) ∧ decodeTableWord 8 0xF2 = some .jamF2 ∧
    decodeTableWord 24 0x1234BB = some (.lasAby 0x34 0x12) ∧ decodeTableWord 24 0x12349C = some (.shyAbx 0x34 0x12) ∧
    decodeTableWord 16 0x4493 = some (.shaIzy 0x44) ∧ decodeTableWord 24 0x00FCFC = some (.nopAbxFC 0xFC 0x00) := by
  decide +kernel

/-- R127: bytes too few for the opcode are no instruction. -/
theorem test_decode_short : decode [0xAD, 0x00] = .error (.truncated 0xAD) ∧ decode [] = .error .noOpcode := ⟨rfl, rfl⟩

/-! Single steps. -/

/-- Bytes put into the memory behind their addresses. -/
def poke : List (Nat × Nat) → State → State
  | [], s => s
  | (a, v) :: t, s => poke t (placeByte (BitVec.ofNat 16 a) (BitVec.ofNat 8 v) s)

/-- The start state of the vectors (spec/95_test_vectors.md 2.0) with other registers and some bytes of memory. -/
def running (c : Cpu) (cells : List (Nat × Nat)) : State :=
  poke cells { State.reset with cpu := c, bus := { State.reset.bus with resetPending := false } }

/-- Another configuration. -/
def configured (cfg : Params) (s : State) : State := { s with cfg := cfg }

/-- The registers, and the flags as N V D I Z C. -/
def regs (a x y s pc : Nat) (f : BitVec 6) : Cpu where
  a := BitVec.ofNat 8 a
  x := BitVec.ofNat 8 x
  y := BitVec.ofNat 8 y
  s := BitVec.ofNat 8 s
  pc := BitVec.ofNat 16 pc
  n := f.getLsbD 5
  v := f.getLsbD 4
  d := f.getLsbD 3
  i := f.getLsbD 2
  z := f.getLsbD 1
  c := f.getLsbD 0

/-- One step from `s` gives registers `c` after `cyc` cycles, and these bytes of work RAM. -/
def gives (s : State) (c : Cpu) (cyc : Nat) (cells : List (Nat × Nat)) : Bool :=
  match step s with
  | .next t => t.cpu == c && t.bus.cyc == s.bus.cyc + cyc && cells.all (fun p => t.ram.read p.1 == BitVec.ofNat 8 p.2)
  | _ => false

theorem test_lda_T1 : gives (running (regs 0x55 0x00 0x00 0xFD 0x8000 0b000100) [(0x8000, 0xA9), (0x8001, 0x0)])
    (regs 0x00 0x00 0x00 0xFD 0x8002 0b000110) 2 [] = true := by decide +kernel

theorem test_lda_T2 : gives (running (regs 0x00 0x02 0x00 0xFD 0x8000 0b000100)
    [(0x8000, 0xB5), (0x8001, 0xFF), (0x1, 0x77), (0x101, 0x99)])
    (regs 0x77 0x02 0x00 0xFD 0x8002 0b000100) 4 [] = true := by decide +kernel

theorem test_ldy_T7 : gives (running (regs 0x00 0x01 0x00 0xFD 0x8000 0b000100)
    [(0x8000, 0xBC), (0x8001, 0xFF), (0x8002, 0xFF), (0x0, 0x11)])
    (regs 0x00 0x01 0x11 0xFD 0x8003 0b000100) 5 [] = true := by decide +kernel

theorem test_ldx_T8 : gives (running (regs 0x00 0x00 0x20 0xFD 0x8000 0b000100)
    [(0x8000, 0xB6), (0x8001, 0xF0), (0x10, 0x80)])
    (regs 0x00 0x80 0x20 0xFD 0x8002 0b100100) 4 [] = true := by decide +kernel

theorem test_sta_T9 : gives (running (regs 0xAB 0x01 0x00 0xFD 0x8000 0b000100)
    [(0x8000, 0x9D), (0x8001, 0xFF), (0x8002, 0x7)])
    (regs 0xAB 0x01 0x00 0xFD 0x8003 0b000100) 5 [(0x0, 0xAB)] = true := by decide +kernel

theorem test_stx_T11 : gives (running (regs 0x00 0x9C 0x20 0xFD 0x8000 0b000100) [(0x8000, 0x96), (0x8001, 0xF0)])
    (regs 0x00 0x9C 0x20 0xFD 0x8002 0b000100) 4 [(0x10, 0x9C)] = true := by decide +kernel

theorem test_sty_T12 : gives (running (regs 0x00 0x00 0x00 0xFD 0x8000 0b100100)
    [(0x8000, 0x8C), (0x8001, 0x0), (0x8002, 0x3)])
    (regs 0x00 0x00 0x00 0xFD 0x8003 0b100100) 4 [(0x300, 0x0)] = true := by decide +kernel

theorem test_txs_T13 : gives (running (regs 0x00 0x00 0x00 0xFD 0x8000 0b100100) [(0x8000, 0x9A)])
    (regs 0x00 0x00 0x00 0x00 0x8001 0b100100) 2 [] = true := by decide +kernel

theorem test_tsx_T14 : gives (running (regs 0x00 0x00 0x00 0x00 0x8000 0b000100) [(0x8000, 0xBA)])
    (regs 0x00 0x00 0x00 0x00 0x8001 0b000110) 2 [] = true := by decide +kernel

theorem test_tax_T15 : gives (running (regs 0x80 0x00 0x00 0xFD 0x8000 0b000100) [(0x8000, 0xAA)])
    (regs 0x80 0x80 0x00 0xFD 0x8001 0b100100) 2 [] = true := by decide +kernel

theorem test_tya_T16 : gives (running (regs 0x12 0x00 0x00 0xFD 0x8000 0b000100) [(0x8000, 0x98)])
    (regs 0x00 0x00 0x00 0xFD 0x8001 0b000110) 2 [] = true := by decide +kernel

theorem test_pha_T20 : gives (running (regs 0x42 0x00 0x00 0x00 0x8000 0b000100) [(0x8000, 0x48)])
    (regs 0x42 0x00 0x00 0xFF 0x8001 0b000100) 3 [(0x100, 0x42)] = true := by decide +kernel

theorem test_pla_T21 : gives (running (regs 0x00 0x00 0x00 0xFF 0x8000 0b000100) [(0x8000, 0x68), (0x100, 0x80)])
    (regs 0x80 0x00 0x00 0x00 0x8001 0b100100) 4 [] = true := by decide +kernel

theorem test_php_T22 : gives (running (regs 0x00 0x00 0x00 0xFD 0x8000 0b111111) [(0x8000, 0x8)])
    (regs 0x00 0x00 0x00 0xFC 0x8001 0b111111) 3 [(0x1FD, 0xFF)] = true := by decide +kernel

theorem test_plp_T24 : gives (running (regs 0x00 0x00 0x00 0xFC 0x8000 0b000100) [(0x8000, 0x28), (0x1FD, 0x30)])
    (regs 0x00 0x00 0x00 0xFD 0x8001 0b000000) 4 [] = true := by decide +kernel

theorem test_adc_T30 : gives (running (regs 0xFF 0x00 0x00 0xFD 0x8000 0b000100) [(0x8000, 0x69), (0x8001, 0x1)])
    (regs 0x00 0x00 0x00 0xFD 0x8002 0b000111) 2 [] = true := by decide +kernel

theorem test_adc_T31 : gives (running (regs 0x7F 0x00 0x00 0xFD 0x8000 0b000100) [(0x8000, 0x69), (0x8001, 0x1)])
    (regs 0x80 0x00 0x00 0xFD 0x8002 0b110100) 2 [] = true := by decide +kernel

theorem test_sbc_T40 : gives (running (regs 0x00 0x00 0x00 0xFD 0x8000 0b000101) [(0x8000, 0xE9), (0x8001, 0x1)])
    (regs 0xFF 0x00 0x00 0xFD 0x8002 0b100100) 2 [] = true := by decide +kernel

theorem test_sbc_T41 : gives (running (regs 0x80 0x00 0x00 0xFD 0x8000 0b000101) [(0x8000, 0xE9), (0x8001, 0x1)])
    (regs 0x7F 0x00 0x00 0xFD 0x8002 0b010101) 2 [] = true := by decide +kernel

theorem test_and_T47 : gives (running (regs 0xF0 0x00 0x00 0xFD 0x8000 0b000100) [(0x8000, 0x29), (0x8001, 0xF)])
    (regs 0x00 0x00 0x00 0xFD 0x8002 0b000110) 2 [] = true := by decide +kernel

theorem test_ora_T48 : gives (running (regs 0x01 0x00 0x00 0xFD 0x8000 0b000100)
    [(0x8000, 0x5), (0x8001, 0x10), (0x10, 0x80)])
    (regs 0x81 0x00 0x00 0xFD 0x8002 0b100100) 3 [] = true := by decide +kernel

theorem test_eor_T49 : gives (running (regs 0xFF 0x04 0x00 0xFD 0x8000 0b000100)
    [(0x8000, 0x41), (0x8001, 0x10), (0x14, 0x0), (0x15, 0x2), (0x200, 0xF)])
    (regs 0xF0 0x04 0x00 0xFD 0x8002 0b100100) 6 [] = true := by decide +kernel

theorem test_cmp_T50 : gives (running (regs 0x00 0x00 0x00 0xFD 0x8000 0b010100) [(0x8000, 0xC9), (0x8001, 0x1)])
    (regs 0x00 0x00 0x00 0xFD 0x8002 0b110100) 2 [] = true := by decide +kernel

theorem test_cmp_T51 : gives (running (regs 0x80 0x00 0x00 0xFD 0x8000 0b000100) [(0x8000, 0xC9), (0x8001, 0x0)])
    (regs 0x80 0x00 0x00 0xFD 0x8002 0b100101) 2 [] = true := by decide +kernel

theorem test_cpx_T52 : gives (running (regs 0x00 0x05 0x00 0xFD 0x8000 0b000100) [(0x8000, 0xE0), (0x8001, 0x6)])
    (regs 0x00 0x05 0x00 0xFD 0x8002 0b100100) 2 [] = true := by decide +kernel

theorem test_cpy_T53 : gives (running (regs 0x00 0x00 0x40 0xFD 0x8000 0b000100)
    [(0x8000, 0xC4), (0x8001, 0x10), (0x10, 0x40)])
    (regs 0x00 0x00 0x40 0xFD 0x8002 0b000111) 3 [] = true := by decide +kernel

theorem test_bit_T54 : gives (running (regs 0x01 0x00 0x00 0xFD 0x8000 0b000100)
    [(0x8000, 0x24), (0x8001, 0x10), (0x10, 0xC0)])
    (regs 0x01 0x00 0x00 0xFD 0x8002 0b110110) 3 [] = true := by decide +kernel

theorem test_inc_T60 : gives (running (regs 0x00 0x00 0x00 0xFD 0x8000 0b000100)
    [(0x8000, 0xE6), (0x8001, 0x10), (0x10, 0xFF)])
    (regs 0x00 0x00 0x00 0xFD 0x8002 0b000110) 5 [(0x10, 0x0)] = true := by decide +kernel

theorem test_dec_T61 : gives (running (regs 0x00 0xFF 0x00 0xFD 0x8000 0b000100)
    [(0x8000, 0xDE), (0x8001, 0x0), (0x8002, 0x3), (0x3FF, 0x0)])
    (regs 0x00 0xFF 0x00 0xFD 0x8003 0b100100) 7 [(0x3FF, 0xFF)] = true := by decide +kernel

theorem test_inx_T63 : gives (running (regs 0x00 0xFF 0x00 0xFD 0x8000 0b000100) [(0x8000, 0xE8)])
    (regs 0x00 0x00 0x00 0xFD 0x8001 0b000110) 2 [] = true := by decide +kernel

theorem test_dey_T64 : gives (running (regs 0x00 0x00 0x00 0xFD 0x8000 0b000100) [(0x8000, 0x88)])
    (regs 0x00 0x00 0xFF 0xFD 0x8001 0b100100) 2 [] = true := by decide +kernel

theorem test_asl_T65 : gives (running (regs 0x80 0x00 0x00 0xFD 0x8000 0b000100) [(0x8000, 0xA)])
    (regs 0x00 0x00 0x00 0xFD 0x8001 0b000111) 2 [] = true := by decide +kernel

theorem test_lsr_T67 : gives (running (regs 0x01 0x00 0x00 0xFD 0x8000 0b100100) [(0x8000, 0x4A)])
    (regs 0x00 0x00 0x00 0xFD 0x8001 0b000111) 2 [] = true := by decide +kernel

theorem test_rol_T69 : gives (running (regs 0x80 0x00 0x00 0xFD 0x8000 0b000100) [(0x8000, 0x2A)])
    (regs 0x00 0x00 0x00 0xFD 0x8001 0b000111) 2 [] = true := by decide +kernel

theorem test_ror_T71 : gives (running (regs 0x01 0x00 0x00 0xFD 0x8000 0b000100) [(0x8000, 0x6A)])
    (regs 0x00 0x00 0x00 0xFD 0x8001 0b000111) 2 [] = true := by decide +kernel

theorem test_ror_T72 : gives (running (regs 0x00 0x00 0x00 0xFD 0x8000 0b000101)
    [(0x8000, 0x66), (0x8001, 0x10), (0x10, 0x0)])
    (regs 0x00 0x00 0x00 0xFD 0x8002 0b100100) 5 [(0x10, 0x80)] = true := by decide +kernel

theorem test_jmp_T80 : gives (running (regs 0x00 0x00 0x00 0xFD 0x8000 0b000100)
    [(0x8000, 0x6C), (0x8001, 0xFF), (0x8002, 0x2), (0x2FF, 0x34), (0x200, 0x12), (0x300, 0x56)])
    (regs 0x00 0x00 0x00 0xFD 0x1234 0b000100) 5 [] = true := by decide +kernel

theorem test_jmp_T81 : gives (running (regs 0x00 0x00 0x00 0xFD 0x8000 0b000100)
    [(0x8000, 0x4C), (0x8001, 0x0), (0x8002, 0x80)])
    (regs 0x00 0x00 0x00 0xFD 0x8000 0b000100) 3 [] = true := by decide +kernel

theorem test_jsr_T82 : gives (running (regs 0x00 0x00 0x00 0xFD 0x8000 0b000100)
    [(0x8000, 0x20), (0x8001, 0x0), (0x8002, 0x90)])
    (regs 0x00 0x00 0x00 0xFB 0x9000 0b000100) 6 [(0x1FD, 0x80), (0x1FC, 0x2)] = true := by decide +kernel

theorem test_rts_T83 : gives (running (regs 0x00 0x00 0x00 0xFB 0x9000 0b000100)
    [(0x9000, 0x60), (0x1FC, 0x2), (0x1FD, 0x80)])
    (regs 0x00 0x00 0x00 0xFD 0x8003 0b000100) 6 [] = true := by decide +kernel

theorem test_bcc_T86 : gives (running (regs 0x00 0x00 0x00 0xFD 0x8000 0b000100) [(0x8000, 0x90), (0x8001, 0xE)])
    (regs 0x00 0x00 0x00 0xFD 0x8010 0b000100) 3 [] = true := by decide +kernel

theorem test_bcs_T87 : gives (running (regs 0x00 0x00 0x00 0xFD 0x8000 0b000100) [(0x8000, 0xB0), (0x8001, 0x5)])
    (regs 0x00 0x00 0x00 0xFD 0x8002 0b000100) 2 [] = true := by decide +kernel

theorem test_beq_T88 : gives (running (regs 0x00 0x00 0x00 0xFD 0x8000 0b000110) [(0x8000, 0xF0), (0x8001, 0xFE)])
    (regs 0x00 0x00 0x00 0xFD 0x8000 0b000110) 3 [] = true := by decide +kernel

theorem test_bne_T89 : gives (running (regs 0x00 0x00 0x00 0xFD 0x80FE 0b000100) [(0x80FE, 0xD0), (0x80FF, 0xFD)])
    (regs 0x00 0x00 0x00 0xFD 0x80FD 0b000100) 4 [] = true := by decide +kernel

theorem test_bmi_T90 : gives (running (regs 0x00 0x00 0x00 0xFD 0x8000 0b100100) [(0x8000, 0x30), (0x8001, 0x7F)])
    (regs 0x00 0x00 0x00 0xFD 0x8081 0b100100) 3 [] = true := by decide +kernel

theorem test_bpl_T91 : gives (running (regs 0x00 0x00 0x00 0xFD 0x8000 0b000100) [(0x8000, 0x10), (0x8001, 0x0)])
    (regs 0x00 0x00 0x00 0xFD 0x8002 0b000100) 3 [] = true := by decide +kernel

theorem test_bvc_T92 : gives (running (regs 0x00 0x00 0x00 0xFD 0x8000 0b000100) [(0x8000, 0x50), (0x8001, 0x80)])
    (regs 0x00 0x00 0x00 0xFD 0x7F82 0b000100) 4 [] = true := by decide +kernel

theorem test_bvs_T93 : gives (running (regs 0x00 0x00 0x00 0xFD 0x8000 0b010100) [(0x8000, 0x70), (0x8001, 0x2)])
    (regs 0x00 0x00 0x00 0xFD 0x8004 0b010100) 3 [] = true := by decide +kernel

theorem test_bne_T95 : gives (running (regs 0x00 0x00 0x00 0xFD 0x8080 0b000100) [(0x8080, 0xD0), (0x8081, 0x7D)])
    (regs 0x00 0x00 0x00 0xFD 0x80FF 0b000100) 3 [] = true := by decide +kernel

theorem test_sec_T100 : gives (running (regs 0x00 0x00 0x00 0xFD 0x8000 0b000100) [(0x8000, 0x38)])
    (regs 0x00 0x00 0x00 0xFD 0x8001 0b000101) 2 [] = true := by decide +kernel

theorem test_clc_T101 : gives (running (regs 0x00 0x00 0x00 0xFD 0x8000 0b000101) [(0x8000, 0x18)])
    (regs 0x00 0x00 0x00 0xFD 0x8001 0b000100) 2 [] = true := by decide +kernel

theorem test_sed_T102 : gives (running (regs 0x00 0x00 0x00 0xFD 0x8000 0b000100) [(0x8000, 0xF8)])
    (regs 0x00 0x00 0x00 0xFD 0x8001 0b001100) 2 [] = true := by decide +kernel

theorem test_cld_T103 : gives (running (regs 0x00 0x00 0x00 0xFD 0x8000 0b001100) [(0x8000, 0xD8)])
    (regs 0x00 0x00 0x00 0xFD 0x8001 0b000100) 2 [] = true := by decide +kernel

theorem test_sei_T104 : gives (running (regs 0x00 0x00 0x00 0xFD 0x8000 0b000000) [(0x8000, 0x78)])
    (regs 0x00 0x00 0x00 0xFD 0x8001 0b000100) 2 [] = true := by decide +kernel

theorem test_cli_T105 : gives (running (regs 0x00 0x00 0x00 0xFD 0x8000 0b000100) [(0x8000, 0x58)])
    (regs 0x00 0x00 0x00 0xFD 0x8001 0b000000) 2 [] = true := by decide +kernel

theorem test_clv_T106 : gives (running (regs 0x00 0x00 0x00 0xFD 0x8000 0b010100) [(0x8000, 0xB8)])
    (regs 0x00 0x00 0x00 0xFD 0x8001 0b000100) 2 [] = true := by decide +kernel

theorem test_nop_T107 : gives (running (regs 0x00 0x00 0x00 0xFD 0x8000 0b000100) [(0x8000, 0xEA)])
    (regs 0x00 0x00 0x00 0xFD 0x8001 0b000100) 2 [] = true := by decide +kernel

theorem test_brk_T108 : gives (running (regs 0x00 0x00 0x00 0xFD 0x8000 0b000001)
    [(0x8000, 0x0), (0x8001, 0xEA), (0xFFFE, 0x0), (0xFFFF, 0x90)])
    (regs 0x00 0x00 0x00 0xFA 0x9000 0b000101) 7 [(0x1FD, 0x80), (0x1FC, 0x2), (0x1FB, 0x31)] = true := by decide +kernel

theorem test_brk_T109 : gives (running (regs 0x00 0x00 0x00 0xFD 0x8000 0b101100)
    [(0x8000, 0x0), (0x8001, 0xEA), (0xFFFE, 0x0), (0xFFFF, 0x90)])
    (regs 0x00 0x00 0x00 0xFA 0x9000 0b101100) 7 [(0x1FB, 0xBC)] = true := by decide +kernel

theorem test_rti_T110 : gives (running (regs 0x00 0x00 0x00 0xFA 0x9000 0b000100)
    [(0x9000, 0x40), (0x1FB, 0x31), (0x1FC, 0x2), (0x1FD, 0x80)])
    (regs 0x00 0x00 0x00 0xFD 0x8002 0b000001) 6 [] = true := by decide +kernel

theorem test_slo_T120 : gives (running (regs 0x01 0x00 0x00 0xFD 0x8000 0b000100)
    [(0x8000, 0x7), (0x8001, 0x10), (0x10, 0x81)])
    (regs 0x03 0x00 0x00 0xFD 0x8002 0b000101) 5 [(0x10, 0x2)] = true := by decide +kernel

theorem test_rla_T121 : gives (running (regs 0xFF 0x00 0x00 0xFD 0x8000 0b000101)
    [(0x8000, 0x27), (0x8001, 0x10), (0x10, 0x40)])
    (regs 0x81 0x00 0x00 0xFD 0x8002 0b100100) 5 [(0x10, 0x81)] = true := by decide +kernel

theorem test_sre_T122 : gives (running (regs 0x01 0x00 0x00 0xFD 0x8000 0b000100)
    [(0x8000, 0x47), (0x8001, 0x10), (0x10, 0x3)])
    (regs 0x00 0x00 0x00 0xFD 0x8002 0b000111) 5 [(0x10, 0x1)] = true := by decide +kernel

theorem test_rra_T123 : gives (running (regs 0x10 0x00 0x00 0xFD 0x8000 0b000100)
    [(0x8000, 0x67), (0x8001, 0x10), (0x10, 0x3)])
    (regs 0x12 0x00 0x00 0xFD 0x8002 0b000100) 5 [(0x10, 0x1)] = true := by decide +kernel

theorem test_dcp_T125 : gives (running (regs 0x05 0x00 0x00 0xFD 0x8000 0b000100)
    [(0x8000, 0xC7), (0x8001, 0x10), (0x10, 0x6)])
    (regs 0x05 0x00 0x00 0xFD 0x8002 0b000111) 5 [(0x10, 0x5)] = true := by decide +kernel

theorem test_isc_T127 : gives (running (regs 0x10 0x00 0x00 0xFD 0x8000 0b000101)
    [(0x8000, 0xE7), (0x8001, 0x10), (0x10, 0x0)])
    (regs 0x0F 0x00 0x00 0xFD 0x8002 0b000101) 5 [(0x10, 0x1)] = true := by decide +kernel

theorem test_sax_T129 : gives (running (regs 0xF0 0x3C 0x00 0xFD 0x8000 0b000100) [(0x8000, 0x87), (0x8001, 0x10)])
    (regs 0xF0 0x3C 0x00 0xFD 0x8002 0b000100) 3 [(0x10, 0x30)] = true := by decide +kernel

theorem test_lax_T131 : gives (running (regs 0x00 0x00 0x00 0xFD 0x8000 0b000100)
    [(0x8000, 0xA7), (0x8001, 0x10), (0x10, 0x80)])
    (regs 0x80 0x80 0x00 0xFD 0x8002 0b100100) 3 [] = true := by decide +kernel

theorem test_lax_T132 : gives (running (regs 0x00 0x00 0x10 0xFD 0x8000 0b000100)
    [(0x8000, 0xBF), (0x8001, 0xF0), (0x8002, 0x2), (0x300, 0x0)])
    (regs 0x00 0x00 0x10 0xFD 0x8003 0b000110) 5 [] = true := by decide +kernel

theorem test_las_T133 : gives (running (regs 0x00 0x00 0x00 0xF0 0x8000 0b000100)
    [(0x8000, 0xBB), (0x8001, 0x0), (0x8002, 0x2), (0x200, 0x3F)])
    (regs 0x30 0x30 0x00 0x30 0x8003 0b000100) 4 [] = true := by decide +kernel

theorem test_anc_T134 : gives (running (regs 0xFF 0x00 0x00 0xFD 0x8000 0b000100) [(0x8000, 0xB), (0x8001, 0x80)])
    (regs 0x80 0x00 0x00 0xFD 0x8002 0b100101) 2 [] = true := by decide +kernel

theorem test_alr_T136 : gives (running (regs 0xFF 0x00 0x00 0xFD 0x8000 0b000100) [(0x8000, 0x4B), (0x8001, 0x3)])
    (regs 0x01 0x00 0x00 0xFD 0x8002 0b000101) 2 [] = true := by decide +kernel

theorem test_arr_T137 : gives (running (regs 0xFF 0x00 0x00 0xFD 0x8000 0b000101) [(0x8000, 0x6B), (0x8001, 0xFF)])
    (regs 0xFF 0x00 0x00 0xFD 0x8002 0b100101) 2 [] = true := by decide +kernel

theorem test_axs_T140 : gives (running (regs 0xFF 0x10 0x00 0xFD 0x8000 0b000100) [(0x8000, 0xCB), (0x8001, 0x1)])
    (regs 0xFF 0x0F 0x00 0xFD 0x8002 0b000101) 2 [] = true := by decide +kernel

theorem test_xaa_T143 : gives (running (regs 0x00 0xFF 0x00 0xFD 0x8000 0b000100) [(0x8000, 0x8B), (0x8001, 0xF)])
    (regs 0x0E 0xFF 0x00 0xFD 0x8002 0b000100) 2 [] = true := by decide +kernel

theorem test_lxa_T145 : gives (running (regs 0x00 0x00 0x00 0xFD 0x8000 0b000100) [(0x8000, 0xAB), (0x8001, 0x5A)])
    (regs 0x5A 0x5A 0x00 0xFD 0x8002 0b000100) 2 [] = true := by decide +kernel

theorem test_sha_T147 : gives (running (regs 0xFF 0xFF 0x05 0xFD 0x8000 0b000100)
    [(0x8000, 0x9F), (0x8001, 0x0), (0x8002, 0x2)])
    (regs 0xFF 0xFF 0x05 0xFD 0x8003 0b000100) 5 [(0x205, 0x3)] = true := by decide +kernel

theorem test_sha_T148 : gives (running (regs 0xFF 0x0F 0x01 0xFD 0x8000 0b000100)
    [(0x8000, 0x93), (0x8001, 0x10), (0x10, 0xFF), (0x11, 0x5)])
    (regs 0xFF 0x0F 0x01 0xFD 0x8002 0b000100) 6 [(0x600, 0x6)] = true := by decide +kernel

theorem test_shy_T149 : gives (running (regs 0x00 0x01 0xFF 0xFD 0x8000 0b000100)
    [(0x8000, 0x9C), (0x8001, 0x0), (0x8002, 0x2)])
    (regs 0x00 0x01 0xFF 0xFD 0x8003 0b000100) 5 [(0x201, 0x3)] = true := by decide +kernel

theorem test_shx_T150 : gives (running (regs 0x00 0xFF 0x20 0xFD 0x8000 0b000100)
    [(0x8000, 0x9E), (0x8001, 0xF0), (0x8002, 0x2)])
    (regs 0x00 0xFF 0x20 0xFD 0x8003 0b000100) 5 [(0x310, 0x3)] = true := by decide +kernel

theorem test_shx_T151 : gives (running (regs 0x00 0x05 0x20 0xFD 0x8000 0b000100)
    [(0x8000, 0x9E), (0x8001, 0xF0), (0x8002, 0x6)])
    (regs 0x00 0x05 0x20 0xFD 0x8003 0b000100) 5 [(0x510, 0x5), (0x710, 0x0)] = true := by decide +kernel

theorem test_tas_T152 : gives (running (regs 0xF3 0x3F 0x00 0xFD 0x8000 0b000100)
    [(0x8000, 0x9B), (0x8001, 0x0), (0x8002, 0x2)])
    (regs 0xF3 0x3F 0x00 0x33 0x8003 0b000100) 5 [(0x200, 0x3)] = true := by decide +kernel

theorem test_jam_T159 : gives (running (regs 0x77 0x00 0x00 0xFD 0x8000 0b000100) [(0x8000, 0x2)])
    (regs 0x77 0x00 0x00 0xFD 0x8001 0b000100) 2 [] = true := by decide +kernel

theorem test_slou_T160 : gives (configured { Params.default with unofficial := .nop } (running (regs 0x01 0x00 0x00 0xFD 0x8000 0b000100)
    [(0x8000, 0x7), (0x8001, 0x10), (0x10, 0x81)]))
    (regs 0x01 0x00 0x00 0xFD 0x8002 0b000100) 3 [(0x10, 0x81)] = true := by decide +kernel

theorem test_saxu_T161 : gives (configured { Params.default with unofficial := .nop } (running (regs 0xF0 0x3C 0x00 0xFD 0x8000 0b000100)
    [(0x8000, 0x87), (0x8001, 0x10), (0x10, 0x55)]))
    (regs 0xF0 0x3C 0x00 0xFD 0x8002 0b000100) 3 [(0x10, 0x55)] = true := by decide +kernel

theorem test_sbcu_T162 : gives (configured { Params.default with unofficial := .nop } (running (regs 0x10 0x00 0x00 0xFD 0x8000 0b000101)
    [(0x8000, 0xEB), (0x8001, 0x1)]))
    (regs 0x10 0x00 0x00 0xFD 0x8002 0b000101) 2 [] = true := by decide +kernel

theorem test_shxu_T163 : gives (configured { Params.default with unofficial := .nop } (running (regs 0x00 0xFF 0x20 0xFD 0x8000 0b000100)
    [(0x8000, 0x9E), (0x8001, 0xF0), (0x8002, 0x2)]))
    (regs 0x00 0xFF 0x20 0xFD 0x8003 0b000100) 5 [(0x310, 0x0)] = true := by decide +kernel

theorem test_dcpu_T164 : gives (configured { Params.default with unofficial := .nop } (running (regs 0x00 0x00 0x01 0xFD 0x8000 0b000100)
    [(0x8000, 0xD3), (0x8001, 0x10), (0x10, 0x0), (0x11, 0x3)]))
    (regs 0x00 0x00 0x01 0xFD 0x8002 0b000100) 5 [] = true := by decide +kernel

theorem test_nopu_T165 : gives (configured { Params.default with unofficial := .nop } (running (regs 0x00 0x00 0x00 0xFD 0x8000 0b000100)
    [(0x8000, 0x1A)]))
    (regs 0x00 0x00 0x00 0xFD 0x8001 0b000100) 2 [] = true := by decide +kernel

theorem test_jamu_T166 : gives (configured { Params.default with unofficial := .nop } (running (regs 0x00 0x00 0x00 0xFD 0x8000 0b000100)
    [(0x8000, 0xF2)]))
    (regs 0x00 0x00 0x00 0xFD 0x8001 0b000100) 2 [] = true := by decide +kernel

theorem test_ldau_T167 : gives (configured { Params.default with unofficial := .nop } (running (regs 0x00 0x00 0x00 0xFD 0x8000 0b000100)
    [(0x8000, 0xA9), (0x8001, 0x1)]))
    (regs 0x01 0x00 0x00 0xFD 0x8002 0b000100) 2 [] = true := by decide +kernel

/-! Other steps. -/

/-- R632: the first step after reset is the reset sequence; the blank image's vector is 0x0000. -/
theorem test_reset_step : gives State.reset (regs 0 0 0 0xFD 0x0000 0b000100) 7 [] = true := by decide +kernel

/-- A table word placed where the next step fetches: LDA #$80 runs first. -/
theorem test_with_fetch_word : gives (State.reset.withFetchWord 16 0x80A9) (regs 0x80 0 0 0 0x0002 0b100100) 2 [] = true := by
  decide +kernel

/-- R329: a pending NMI is taken before the instruction, whatever I is, and the flags are pushed with B = 0. -/
theorem test_nmi_entry :
    (let s := running (regs 1 2 3 0xFD 0x8123 0b000100) [(0xFFFA, 0x34), (0xFFFB, 0x92)]
     gives { s with bus := { s.bus with nmiPending := true } } (regs 1 2 3 0xFA 0x9234 0b000100) 7
       [(0x1FD, 0x81), (0x1FC, 0x23), (0x1FB, 0x24)]) = true := by decide +kernel

/-- R241: a JSR in the stack page whose third byte (0x90) its first push overwrites with 0x01 jumps to 0x0100. -/
theorem test_jsr_overwrites_itself :
    gives (running (regs 0 0 0 0xFD 0x01FB 0b000100) [(0x1FB, 0x20), (0x1FC, 0x00), (0x1FD, 0x90)])
      (regs 0 0 0 0xFB 0x0100 0b000100) 6 [(0x1FD, 0x01), (0x1FC, 0xFD)] = true := by decide +kernel

/-- R96: an OAM DMA asked for at an even `cyc` aligns in two cycles, at an odd one in one. -/
theorem test_dma_align : (dmaAlign State.reset).bus.cyc = 2 ∧
    (dmaAlign { State.reset with bus := { State.reset.bus with cyc := 7 } }).bus.cyc = 8 := by decide +kernel

/-- R601: a step is refused in OFF. -/
theorem test_off : step { State.reset with power := .off } = .fault .notPowered := rfl

/-- A running machine with a battery. -/
def withBattery : State :=
  { State.reset with image := { Image.blank with battery := true }, prgRam := [(0, 0x5A)], power := .running }

/-- R377, R594: a backup is handed over whether or not its write succeeds; a failure is logged, and the next power-on is without it. -/
theorem test_backup_write : (withBattery.powerFalse .done).backups.length = 1 ∧ (withBattery.powerFalse .done).diag = [] ∧
    (withBattery.powerFalse .failed).backups.length = 1 ∧ (withBattery.powerFalse .failed).diag = [.ioFault .write] ∧
    ((withBattery.powerFalse .failed).powerTrue .done).prgRam.read 0 = 0 := by decide +kernel

/-- R594: a read that fails is logged, and PRG-RAM starts at 0x00. -/
theorem test_backup_read :
    (let s := State.off Params.default { Image.blank with battery := true, blob := some [0x5A] }
     (s.powerTrue .done).prgRam.read 0 = 0x5A ∧ (s.powerTrue .done).diag = [] ∧
     (s.powerTrue .failed).prgRam.read 0 = 0 ∧ (s.powerTrue .failed).diag = [.ioFault .read]) := by decide +kernel

/-! Witnesses. -/

/-- `s` has a next state. -/
def steps (s : State) : Bool :=
  match step s with
  | .next _ => true
  | _ => false

theorem next_of_steps {s : State} (h : steps s = true) : ∃ t, step s = .next t := by
  unfold steps at h
  split at h
  · exact ⟨_, ‹_›⟩
  · cases h

/-- A running machine with an instruction of three bytes in work RAM, I clear. -/
def sample : State := running (regs 0x10 0x20 0x30 0xFD 0x0200 0b000001) [(0x200, 0xBD), (0x201, 0xF0), (0x202, 0x12)]

/-- `EncodeOfDecode`, `LengthByOpcode`. -/
theorem witness_decode : decode [0xBD, 0xF0, 0x12, 0x00] = .ok (.ldaAbx 0xF0 0x12, [0x00]) := rfl

/-- `StepRunsDecoded`, `CycleCounts`; `PollOrder`, `NoInstructionStops` with power on. -/
theorem witness_running : Quiet sample ∧ sample.power ≠ .off ∧ sample.hung = false ∧ sample.bus.resetPending = false ∧
    sample.bus.nmiPending = false ∧ irqTaken sample = false ∧ placeable sample sample.cpu.pc = true ∧
    placeable sample (sample.cpu.pc + 1) = true ∧ placeable sample (sample.cpu.pc + 2) = true ∧
    decode [sample.memoryByte sample.cpu.pc, sample.memoryByte (sample.cpu.pc + 1), sample.memoryByte (sample.cpu.pc + 2)] =
      .ok (.ldaAbx 0xF0 0x12, []) :=
  ⟨⟨rfl, rfl, rfl⟩, by decide, by decide, by decide, by decide, by decide, by decide, by decide, by decide, by decide +kernel⟩

/-- `PollOrder`, its first three clauses. -/
theorem witness_poll : State.reset.power ≠ .off ∧ State.reset.hung = false ∧ State.reset.bus.resetPending = true ∧
    (∃ s : State, s.power ≠ .off ∧ s.hung = false ∧ s.bus.resetPending = false ∧ s.bus.nmiPending = true) ∧
    (∃ s : State, s.power ≠ .off ∧ s.hung = false ∧ s.bus.resetPending = false ∧ s.bus.nmiPending = false ∧
      irqLine s = true ∧ s.cpu.i = false) :=
  ⟨by decide, by decide, by decide, ⟨{ sample with bus := { sample.bus with nmiPending := true } }, by decide⟩,
    ⟨{ sample with apu := { sample.apu with frameIrq := true } }, by decide⟩⟩

/-- `NoInstructionStops`: a machine in OFF. -/
theorem witness_off : ∃ s : State, s.power = .off := ⟨State.off Params.default Image.blank, rfl⟩

/-- `ReadMemory`: the ends of the windows of memory, and what lies beside them. -/
theorem witness_placeable : placeable sample 0x0000 = true ∧ placeable sample 0x1FFF = true ∧ placeable sample 0x2000 = false ∧
    placeable sample 0x5FFF = false ∧ placeable sample 0x6000 = true ∧ placeable sample 0x7FFF = true ∧
    placeable sample 0x8000 = true ∧ placeable sample 0xFFFF = true ∧ sample.bus.oamdmaPending = false := by decide +kernel

/-- `OpenBus`: the ends of its range, and the addresses beside the ports. -/
theorem witness_open_bus : Quiet sample ∧ ∀ n ∈ [0x4000, 0x4014, 0x4018, 0x5FFF],
    let a : Addr := BitVec.ofNat 16 n
    0x4000 ≤ a.toNat ∧ a.toNat < 0x6000 ∧ a.toNat ≠ 0x4015 ∧ a.toNat ≠ 0x4016 ∧ a.toNat ≠ 0x4017 :=
  ⟨⟨rfl, rfl, rfl⟩, by decide +kernel⟩

/-- `OpenBus`: PRG-RAM that MMC1 or MMC3 disables, the ends of its window. -/
theorem witness_open_bus_prg_ram : ∀ m ∈ [Mapper.mmc1 { Mmc1.powerOn with prg := 0x10 },
      .mmc3 { Mmc3.powerOn .vertical with ramProtect := 0x7F }],
    Quiet { sample with mapper := m } ∧ prgRamEnabled m = false ∧
    0x6000 ≤ (0x6000#16).toNat ∧ (0x7FFF#16).toNat < 0x8000 := by
  intro m hm
  simp only [List.mem_cons, List.not_mem_nil, or_false] at hm
  rcases hm with rfl | rfl <;> exact ⟨⟨rfl, rfl, rfl⟩, by decide, by decide, by decide⟩

/-- `WriteMemory`: its clauses at the ends of their ranges. -/
theorem witness_write : (0x1FFF#16).toNat < 0x2000 ∧ (0x07FF#16).toNat % 2048 = (0x1FFF#16).toNat % 2048 ∧
    0x6000 ≤ (0x6000#16).toNat ∧ (0x7FFF#16).toNat < 0x8000 ∧ prgRamWritable sample.mapper = true := by decide +kernel

/-- `CycleCounters`, with stall cycles due. -/
theorem witness_counters : ∃ s : State, s.bus.oamdmaPending = false ∧ s.apu.dmc.remaining = 0 ∧ s.bus.stall = 3 :=
  ⟨{ sample with bus := { sample.bus with stall := 3 } }, by decide +kernel⟩

/-- `OamDmaCost`, `OamDmaCopies`: the last page of work RAM's mirrors. -/
theorem witness_oam_dma : ∃ s : State, s.bus.stall = 0 ∧ s.bus.oamdmaPending = true ∧ s.apu.dmc.remaining = 0 ∧
    s.ppu.renderingEnabled = false ∧ s.bus.oamdmaPage.toNat = 0x1F :=
  ⟨{ sample with bus := { sample.bus with oamdmaPending := true, oamdmaPage := 0x1F } }, by decide +kernel⟩

/-- `EffectiveAddress`: an operand whose target is memory. -/
theorem witness_target : placeable sample (sample.target (.izy 0x10)) = true := by decide +kernel

/-- `Loads`, `AddSubtract`, `Logic`, `Compares`, `BitTest`: every clause has an instruction. -/
theorem witness_sources : ∀ p ∈ [(Instr.ldaIzx 0, Mnem.lda), (.ldxZpy 0, .ldx), (.ldyImm 0, .ldy), (.adcImm 0, .adc),
      (.sbcAbx 0 0, .sbc), (.sbcImmEB 0, .sbcU), (.andZp 0, .and), (.oraAby 0 0, .ora), (.eorIzy 0, .eor), (.cmpImm 0, .cmp),
      (.cpxZp 0, .cpx), (.cpyAbs 0 0, .cpy), (.bitZp 0, .bit)],
    p.1.mnem = p.2 ∧ ∃ x, p.1.form = .src x := by
  intro p hp
  simp only [List.mem_cons, List.not_mem_nil, or_false] at hp
  rcases hp with rfl | rfl | rfl | rfl | rfl | rfl | rfl | rfl | rfl | rfl | rfl | rfl | rfl <;> exact ⟨rfl, _, rfl⟩

/-- `CombinedRead`: every clause has an instruction, under the documented behaviour. -/
theorem witness_combined_read : sample.cfg.unofficial = .documented ∧
    ∀ p ∈ [(Instr.laxIzx 0, Mnem.lax), (.ancImm2B 0, .anc), (.alrImm 0, .alr), (.arrImm 0, .arr), (.axsImm 0, .axs),
      (.xaaImm 0, .xaa), (.lxaImm 0, .lxa), (.lasAby 0 0, .las)],
    p.1.mnem = p.2 ∧ ∃ x, p.1.form = .src x := by
  refine ⟨by decide, ?_⟩
  intro p hp
  simp only [List.mem_cons, List.not_mem_nil, or_false] at hp
  rcases hp with rfl | rfl | rfl | rfl | rfl | rfl | rfl | rfl <;> exact ⟨rfl, _, rfl⟩

/-- `Stores`, `ModifyMemory`, `CombinedModify`: every clause has an instruction. -/
theorem witness_stores : sample.cfg.unofficial = .documented ∧
    ∀ p ∈ [(Instr.staIzx 0, Mnem.sta), (.stxZpy 0, .stx), (.styAbs 0 0, .sty), (.saxZp 0, .sax), (.incZp 0, .inc),
      (.decAbx 0 0, .dec), (.aslZp 0, .asl), (.lsrAbs 0 0, .lsr), (.rolZpx 0, .rol), (.rorAbx 0 0, .ror), (.sloIzx 0, .slo),
      (.rlaIzy 0, .rla), (.sreAby 0 0, .sre), (.rraZp 0, .rra), (.dcpAbs 0 0, .dcp), (.iscZpx 0, .isc)],
    p.1.mnem = p.2 ∧ ∃ m, p.1.form = .src (.mem m) := by
  refine ⟨by decide, ?_⟩
  intro p hp
  simp only [List.mem_cons, List.not_mem_nil, or_false] at hp
  rcases hp with rfl | rfl | rfl | rfl | rfl | rfl | rfl | rfl | rfl | rfl | rfl | rfl | rfl | rfl | rfl | rfl <;>
    exact ⟨rfl, _, rfl⟩

/-- `StoreHighByte`: every clause has an instruction. -/
theorem witness_store_high : sample.cfg.unofficial = .documented ∧
    (Instr.shyAbx 1 2).mnem = .shy ∧ (Instr.shyAbx 1 2).form = .src (.mem (.abx 1 2)) ∧
    (Instr.shxAby 1 2).mnem = .shx ∧ (Instr.shxAby 1 2).form = .src (.mem (.aby 1 2)) ∧
    (Instr.shaAby 1 2).mnem = .sha ∧ (Instr.shaAby 1 2).form = .src (.mem (.aby 1 2)) ∧
    (Instr.shaIzy 1).mnem = .sha ∧ (Instr.shaIzy 1).form = .src (.mem (.izy 1)) ∧
    (Instr.tasAby 1 2).mnem = .tas ∧ (Instr.tasAby 1 2).form = .src (.mem (.aby 1 2)) := by decide +kernel

/-- `NopsAndJam`: its three clauses. -/
theorem witness_nops : Instr.nop1A.mnem = .nopU ∧ sample.cfg.unofficial = .documented ∧ Instr.jam02.mnem = .jam ∧
    (∃ s : State, s.cfg.unofficial = .nop) ∧ (Instr.sloZp 0).mnem.official = false ∧ (Instr.sloZp 0).mnem ≠ .jam :=
  ⟨by decide, by decide, by decide, ⟨configured { Params.default with unofficial := .nop } sample, by decide⟩, by decide,
    by decide +kernel⟩

/-- `Jumps`, `Call`: a pointer at the end of a page, and a third byte in memory. -/
theorem witness_jumps : placeable sample (word 0x02 0xFF) = true ∧ placeable sample (word 0x02 (0xFF + 1)) = true ∧
    placeable sample sample.cpu.pc = true := by decide +kernel

/-- `Branches`: each branch, with its condition true and false. -/
theorem witness_branches : ∀ p ∈ [(Instr.bccRel 0x80, false), (.bcsRel 0x7F, true), (.beqRel 0, false), (.bneRel 0xFF, true),
      (.bmiRel 0, false), (.bplRel 0, true), (.bvcRel 0, true), (.bvsRel 0, false)],
    p.1.mnem.condition sample.cpu = some p.2 ∧ ∃ o, p.1.form = .rel o := by
  intro p hp
  simp only [List.mem_cons, List.not_mem_nil, or_false] at hp
  rcases hp with rfl | rfl | rfl | rfl | rfl | rfl | rfl | rfl <;> exact ⟨rfl, _, rfl⟩

/-- `RegisterSteps`, `ResetSequence`: a quiet machine. -/
theorem witness_quiet : Quiet sample := ⟨rfl, rfl, rfl⟩

/-- `CallThenReturn`: the subroutine that changes nothing. -/
theorem witness_call : ∃ t, exec (.jsrAbs 0x34 0x12) sample = .next t ∧ t.cpu.s = t.cpu.s := ⟨_, rfl, rfl⟩

/-- `InterruptThenReturn`: each of its three ways in. -/
theorem witness_interrupt : (∃ t, t = nmiEntry sample) ∧ (∃ t, t = irqEntry sample) ∧ (∃ t, exec .brk sample = .next t) ∧
    (2 : Byte).toNat < 3 := ⟨⟨_, rfl⟩, ⟨_, rfl⟩, ⟨_, rfl⟩, by decide +kernel⟩

/-- `InterruptEntry`: NMIs disabled; a request held inside vblank, the last position its clause takes; a pending NMI; an IRQ. -/
theorem witness_entry : sample.ppu.ctrl.getLsbD 7 = false ∧
    (∃ s : State, Quiet s ∧ placeable s s.cpu.pc = true ∧ s.bus.nmiPending = true ∧ s.bus.nmiPrev = true ∧
      s.ppu.vblankFlag = true ∧ s.ppu.ctrl.getLsbD 7 = true ∧ s.ppu.scanline + 1 < s.image.region.preLine ∧ s.ppu.dot ≤ 340) ∧
    ∃ s : State, Quiet s ∧ placeable s s.cpu.pc = true ∧ irqLine s = true :=
  ⟨by decide,
    ⟨{ sample with
        bus := { sample.bus with nmiPending := true, nmiPrev := true }
        ppu := { sample.ppu with vblankFlag := true, ctrl := 0x80, scanline := 259, dot := 340 } },
      ⟨rfl, rfl, rfl⟩, by decide, rfl, rfl, rfl, by decide, by decide, by decide⟩,
    ⟨{ sample with apu := { sample.apu with frameIrq := true } }, ⟨rfl, rfl, rfl⟩, by decide, by decide⟩⟩

/-- `NonStoringFrame`, `WritersOfRegistersAndFlags`. -/
theorem witness_non_storing : ∃ t, exec (.ldaZp 0x10) sample = .next t ∧
    (Instr.ldaZp 0x10).stores sample.cfg.unofficial = false ∧ sample.bus.oamdmaPending = false ∧
    (Instr.ldaZp 0x10).mnem.writesX = false := ⟨_, rfl, by decide, by decide, by decide +kernel⟩

/-- `StoringFrame`: a store, a modify and an unofficial store, and an address that is not the target. -/
theorem witness_storing : ∀ p ∈ [(Instr.staAbx 0xF0 0x12, MemOperand.abx 0xF0 0x12), (.incZp 0x10, .zp 0x10),
      (.saxZpy 0x10, .zpy 0x10)],
    p.1.stores sample.cfg.unofficial = true ∧ p.1.form = .src (.mem p.2) ∧ p.1.mnem ≠ .jsr ∧ p.1.mnem ≠ .sha ∧
    p.1.mnem ≠ .shx ∧ p.1.mnem ≠ .shy ∧ p.1.mnem ≠ .tas ∧ (∃ t, exec p.1 sample = .next t) ∧
    placeable sample 0x1FFF = true ∧ ¬(sample.target p.2 = 0x1FFF ∨ (sample.target p.2).toNat < 0x2000 ∧
      (0x1FFF#16).toNat < 0x2000 ∧ (sample.target p.2).toNat % 2048 = (0x1FFF#16).toNat % 2048) := by
  intro p hp
  simp only [List.mem_cons, List.not_mem_nil, or_false] at hp
  rcases hp with rfl | rfl | rfl <;>
    exact ⟨by decide, rfl, by decide, by decide, by decide, by decide, by decide, ⟨_, rfl⟩, by decide, by decide +kernel⟩

/-- `StoreFrame`'s clause on sprite memory: addresses beside OAMDATA and its last mirror, and those two. -/
theorem witness_oam_data : sample.bus.oamdmaPending = false ∧ ¬isOamData 0x2003 ∧ ¬isOamData 0x4004 ∧ isOamData 0x2004 ∧
    isOamData 0x3FFC := by
  unfold isOamData
  decide +kernel

/-- `ImageConstant`: a step of a running machine. -/
theorem witness_step : ∃ t, step sample = .next t := next_of_steps (by decide +kernel)

/-- `StepKeepsInvariant`: the invariant holds at reset, and a step follows. -/
theorem witness_invariant : State.reset.Inv ∧ ∃ t, step State.reset = .next t :=
  ⟨⟨⟨rfl, rfl, rfl, rfl, rfl, rfl, rfl⟩, rfl, ⟨by decide, by decide⟩, fun _ => (by decide : 0#8 &&& 0x1C = 0),
    ⟨by decide, by decide, by decide, by decide⟩⟩, next_of_steps (by decide +kernel)⟩

/-- `SoftReset`: a powered machine. -/
theorem witness_powered : sample.power ≠ .off := by decide +kernel

/-- `SoftReset`: a machine in OFF. -/
theorem witness_soft_reset_off : (State.off Params.default Image.blank).power = .off := rfl

/-- `StatusRead`: the first and the last mirror of PPUSTATUS. -/
theorem witness_status : ∀ n ∈ [0x2002, 0x3FFA],
    let a : Addr := BitVec.ofNat 16 n
    0x2000 ≤ a.toNat ∧ a.toNat < 0x4000 ∧ a.toNat % 8 = 2 := by decide +kernel

/-- `VblankAndNmi`: its two dots, and one that is neither. -/
theorem witness_vblank : (∃ s : State, s.ppu.scanline = 241 ∧ s.ppu.dot = 1) ∧
    (∃ s : State, s.ppu.scanline = s.image.region.preLine ∧ s.ppu.dot = 1) ∧
    ¬(sample.ppu.scanline = 241 ∧ sample.ppu.dot = 1) ∧
    ¬(sample.ppu.scanline = sample.image.region.preLine ∧ sample.ppu.dot = 1) :=
  ⟨⟨{ sample with ppu := { sample.ppu with scanline := 241, dot := 1 } }, rfl, rfl⟩,
    ⟨{ sample with ppu := { sample.ppu with scanline := 261, dot := 1 } }, by decide, rfl⟩, by decide, by decide +kernel⟩

/-- `ScrollAndAddressWrites`. -/
theorem witness_toggle : sample.ppu.w = false := by decide +kernel

/-- `PaletteWrite`: the ends of the palette's range. -/
theorem witness_palette : ∀ v ∈ [0x3F00#15, 0x3FFF, 0x7F00], ∃ s : State, s.ppu.v = v ∧ 0x3F00 ≤ s.ppu.v.toNat % 0x4000 ∧
    s.ppu.renderingNow s.image.region = false := by
  intro v hv
  simp only [List.mem_cons, List.not_mem_nil, or_false] at hv
  rcases hv with rfl | rfl | rfl <;>
    exact ⟨{ sample with ppu := { sample.ppu with v := _ } }, rfl, by decide +kernel, by decide +kernel⟩

/-- R618, log 30: the bytes of a pixel, R first. -/
theorem test_rgba_bytes : rgbaBytes 0x11223344 = [0x11, 0x22, 0x33, 0x44] := by decide

/-- `BanksInRange`. -/
theorem witness_banks : 0 < Image.blank.prgCount := by decide +kernel

/-- `UnromBusConflict`: the ends of the ROM window. -/
theorem witness_unrom : ∃ s : State, s.mapper = .unrom 0 ∧ 0x8000 ≤ (0x8000#16).toNat ∧ 0x8000 ≤ (0xFFFF#16).toNat :=
  ⟨{ sample with mapper := .unrom 0 }, rfl, by decide, by decide +kernel⟩

/-- `Mmc1SerialLoad`: at power-on, with writes two cycles apart. -/
theorem witness_mmc1 : Mmc1.powerOn.sr = 0 ∧ Mmc1.powerOn.srCount = 0 ∧ (0x01 : Byte).getLsbD 7 = false ∧
    (∀ c, Mmc1.powerOn.lastWriteCyc = some c → c + 1 < 0) ∧ 0 + 1 < 2 ∧ 2 + 1 < 4 ∧ 4 + 1 < 6 ∧ 6 + 1 < 8 :=
  ⟨rfl, rfl, by decide, (by intro c h; cases h), by decide, by decide, by decide, by decide +kernel⟩

/-- `Mmc3Interrupt`. -/
theorem witness_mmc3 : ∃ r : Mmc3, r.irqReload = true ∧ r.irqEnabled = true ∧ r.mapperIrq = false :=
  ⟨{ Mmc3.powerOn .vertical with irqReload := true, irqEnabled := true }, rfl, rfl, rfl⟩

/-- `ControllerSerial`. -/
theorem witness_strobe : sample.input.strobe = false := by decide +kernel

end Sys2Proof.Tests
end

section
/-! The clocks, the writers of registers and flags, and the reset values (spec/10_state.md). -/

namespace Sys2Proof.Machine

/-! The stall cycles before a read (R51). -/

/-- A stall cycle before `n` cycles makes them `1 + n`. -/
theorem Spent.of_spendStall {n : Nat} {s t : State} (h : Spent n (spendStall s) t) : Spent (1 + n) s t where
  cyc := by
    have hc : (spendStall s).bus.cyc = s.bus.cyc + 1 := congrArg (· + 1) (beginCycle_counters s).1
    rw [h.cyc, hc, Nat.add_assoc]
  mclk := by
    have hm : (spendStall s).bus.mclk = (beginCycle s).bus.mclk + (beginCycle s).image.region.cpuDiv := rfl
    have hi : (spendStall s).image = s.image := (beginCycle_untouched s).image
    rw [h.mclk, hm, hi, (beginCycle_counters s).2.1, (beginCycle_untouched s).image, Nat.add_mul, Nat.one_mul, Nat.add_assoc]
  image := h.image.trans (beginCycle_untouched s).image
  hung := h.hung.trans (beginCycle_hung s)
  quiet := h.quiet

/-- A stall cycle with no DMC byte due takes one from the stall and requests nothing. -/
theorem spendStall_of_idle {s : State} (h : s.apu.dmc.remaining = 0) :
    (spendStall s).bus.stall = s.bus.stall - 1 ∧ (spendStall s).bus.oamdmaPending = s.bus.oamdmaPending ∧
    (spendStall s).apu.dmc.remaining = 0 := by
  obtain ⟨hbus, hdmc⟩ := beginCycle_of_idle h
  exact ⟨congrArg (·.stall - 1) hbus, congrArg (·.oamdmaPending) hbus, hdmc⟩

/-- With fuel for every stall cycle due and no DMC byte or OAM DMA due, the stall loop spends exactly those cycles. -/
theorem drainLoop_spent (fuel : Nat) : ∀ s : State, s.bus.stall ≤ fuel → s.bus.oamdmaPending = false →
    s.apu.dmc.remaining = 0 → Spent s.bus.stall s (drainLoop fuel s) := by
  have done : ∀ (k : Nat) (s : State), s.bus.stall = 0 → s.bus.oamdmaPending = false → s.apu.dmc.remaining = 0 →
      Spent s.bus.stall s (drainLoop k s) := by
    intro k s hstall hdma hdmc
    rw [drainLoop_of_no_stall k hstall, hstall]
    exact Spent.refl ⟨hstall, hdma, hdmc⟩
  induction fuel with
  | zero => exact fun s hle => done 0 s (Nat.le_zero.mp hle)
  | succ fuel ih =>
    intro s hle hdma hdmc
    by_cases hstall : s.bus.stall = 0
    · exact done _ s hstall hdma hdmc
    · obtain ⟨hstall', hdma', hdmc'⟩ := spendStall_of_idle hdmc
      have hrest := (ih (spendStall s) (by omega) (hdma'.trans hdma) hdmc').of_spendStall
      have hcount : 1 + (spendStall s).bus.stall = s.bus.stall := by omega
      rw [hcount] at hrest
      unfold drainLoop
      rw [if_neg hstall]
      exact hrest

/-- The fuel of the stall loop covers the stall cycles already due (log 6). -/
theorem stall_le_stallFuel (s : State) : s.bus.stall ≤ stallFuel s := by
  unfold stallFuel
  omega

/-- A read with no DMC byte and no OAM DMA due takes the stall cycles due and one cycle for itself. -/
theorem memRead_spent_stall (a : Addr) {s : State} (hdma : s.bus.oamdmaPending = false)
    (hdmc : s.apu.dmc.remaining = 0) : Spent (s.bus.stall + 1) s (memRead a s).2 := by
  have hdrain : Spent s.bus.stall s (drainStall s) := drainLoop_spent _ s (stall_le_stallFuel s) hdma hdmc
  have hread : memRead a s = readCycle a (drainStall s) := by
    unfold memRead
    rw [preRead_of_no_dma hdrain.quiet.oamDma]
  rw [hread]
  exact hdrain.trans (readCycle_spent a hdrain.quiet)

end Sys2Proof.Machine

namespace Sys2Proof

/-- Settles O12: a write is one cycle wherever it goes, and a read is the stall loop followed by one read cycle. -/
theorem cycleCounters : Obligations.CycleCounters := by
  unfold Obligations.CycleCounters
  refine ⟨fun a v s => ⟨Machine.memWrite_cyc a v s, Machine.memWrite_mclk a v s⟩, fun a s hdma hdmc => ?_⟩
  have h := Machine.memRead_spent_stall a hdma hdmc
  exact ⟨h.cyc, h.mclk, h.quiet.stall, h.hung⟩

/-! The writers of a register or a flag (R31 to R42). -/

/-- The registers and flags that `m` is not listed as a writer of; the others, and PC, are blanked. So `m.kept d = m.kept c` says
that going from `c` to `d` changed only what `m` may write. -/
def Mnem.kept (m : Mnem) (c : Machine.Cpu) : Machine.Cpu where
  a := bif m.writesA then 0 else c.a
  x := bif m.writesX then 0 else c.x
  y := bif m.writesY then 0 else c.y
  s := bif m.writesS then 0 else c.s
  pc := 0
  c := !m.writesC && c.c
  z := !m.writesNZ && c.z
  i := !m.writesI && c.i
  d := !m.writesD && c.d
  v := !m.writesV && c.v
  n := !m.writesNZ && c.n

/-- Equal kept parts are equal in every register and flag that `m` does not write. -/
theorem Mnem.eq_of_kept_eq {m : Mnem} {c d : Machine.Cpu} (h : m.kept d = m.kept c) :
    (m.writesA = false → d.a = c.a) ∧ (m.writesX = false → d.x = c.x) ∧
    (m.writesY = false → d.y = c.y) ∧ (m.writesS = false → d.s = c.s) ∧
    (m.writesC = false → d.c = c.c) ∧
    (m.writesNZ = false → d.z = c.z ∧ d.n = c.n) ∧
    (m.writesI = false → d.i = c.i) ∧ (m.writesD = false → d.d = c.d) ∧
    (m.writesV = false → d.v = c.v) := by
  have register : ∀ {b : Bool} {x y : Byte}, (bif b then 0 else x) = (bif b then 0 else y) → b = false → x = y := by
    rintro b x y hxy rfl
    exact hxy
  have flag : ∀ {b x y : Bool}, (!b && x) = (!b && y) → b = false → x = y := by
    rintro b x y hxy rfl
    exact hxy
  obtain ⟨ha, hx, hy, hs, -, hc, hz, hi, hd, hv, hn⟩ := Machine.Cpu.mk.inj h
  exact ⟨register ha, register hx, register hy, register hs, flag hc, fun hw => ⟨flag hz hw, flag hn hw⟩, flag hi, flag hd,
    flag hv⟩

namespace Machine

/-- An unofficial instruction runs its documented meaning or leaves every register alone (spec/46_unofficial.md R312). -/
theorem unofficial_cpu {i : Instr} {doc : State → Host.Outcome State Fault Refusal} {s t : State}
    (h : unofficial i doc s = .next t) : doc s = .next t ∨ t.cpu = s.cpu := by
  rcases unofficial_next h with ⟨-, hdoc⟩ | ⟨-, rfl⟩
  · exact .inl hdoc
  · exact .inr (nopAccesses_cpu i.form s)

/-- An address-high-byte instruction changes the registers as its operation `f` does: reading the pointer changes none. -/
theorem onHigh_cpu {f : Addr → Byte → State → State} {g : Cpu → Cpu} {s t : State} {form : Form}
    (hf : ∀ base j u, (f base j u).cpu = g u.cpu) (h : onHigh f s form = .next t) : t.cpu = g s.cpu := by
  rcases onHigh_next h with ⟨l, u, -, rfl⟩ | ⟨l, u, -, rfl⟩ | ⟨z, -, rfl⟩
  · exact hf _ _ s
  · exact hf _ _ s
  · rw [hf, zpPointer_cpu]

/-- An instruction changes only registers and flags that its mnemonic is listed for. -/
theorem exec_kept {i : Instr} {s t : State} (h : exec i s = .next t) : i.mnem.kept t.cpu = i.mnem.kept s.cpu := by
  rw [exec_eq_view] at h
  unfold execView at h
  cases hm : i.mnem <;> rw [hm] at h <;> dsimp only at h
  case lda | ldx | ldy | adc | sbc | and | ora | eor | cmp | cpx | cpy | bit =>
    obtain ⟨x, -, rfl⟩ := onSrc_next h
    rw [readOperand_cpu]
    rfl
  case lax | las | anc | alr | arr | axs | sbcU | xaa | lxa =>
    rcases unofficial_cpu h with h | hsame
    · obtain ⟨x, -, rfl⟩ := onSrc_next h
      rw [readOperand_cpu]
      rfl
    · rw [hsame]
  case sta | stx | sty =>
    obtain ⟨m, -, rfl⟩ := onMem_next h
    rw [storeOperand_cpu]
  case sax =>
    rcases unofficial_cpu h with h | hsame
    · obtain ⟨m, -, rfl⟩ := onMem_next h
      rw [storeOperand_cpu]
    · rw [hsame]
  case asl | lsr | rol | ror =>
    rcases onMemAcc_next h with ⟨m, -, rfl⟩ | ⟨-, rfl⟩
    · rw [modifyOperand_cpu]
      rfl
    · rw [modifyAcc_cpu]
      rfl
  case inc | dec =>
    obtain ⟨m, -, rfl⟩ := onMem_next h
    rw [modifyOperand_cpu]
    rfl
  case slo | rla | sre | rra | dcp | isc =>
    rcases unofficial_cpu h with h | hsame
    · obtain ⟨m, -, rfl⟩ := onMem_next h
      rw [modifyOperand_cpu]
      rfl
    · rw [hsame]
  case sha | shx | shy =>
    rcases unofficial_cpu h with h | hsame
    · rw [onHigh_cpu (g := id) (fun _ _ _ => storeHigh_cpu _ _ _ _) h]
      rfl
    · rw [hsame]
  case tas =>
    rcases unofficial_cpu h with h | hsame
    · rw [onHigh_cpu (g := fun c => { c with s := c.a &&& c.x }) (fun _ _ _ => storeHigh_cpu _ _ _ _) h]
      rfl
    · rw [hsame]
  case tax | tay | txa | tya | tsx | txs | inx | iny | dex | dey | clc | sec | cli | sei | cld | sed | clv | nop =>
    cases h
    rw [implied_cpu]
    rfl
  case bcc | bcs | beq | bne | bmi | bpl | bvc | bvs =>
    obtain ⟨o, -, rfl⟩ := onRel_next h
    rw [branch_cpu]
    split <;> rfl
  case pha | php =>
    cases h
    rw [push_cpu, dummyRead_cpu]
    rfl
  case pla | plp =>
    cases h
    simp only [State.mapCpu, pull_cpu, dummyStack_cpu, dummyRead_cpu]
    rfl
  case jmp =>
    rcases onJump_next h with ⟨l, u, -, rfl⟩ | ⟨l, u, -, rfl⟩
    · rfl
    · rw [State.setPc_cpu, readWord_cpu]
      rfl
  case jsr =>
    split at h
    · cases h
      simp only [State.setPc_cpu, memRead_cpu, push_cpu, dummyStack_cpu]
      rfl
    · cases h
  case rts =>
    cases h
    simp only [State.setPc_cpu, pull_cpu, dummyStack_cpu, dummyRead_cpu]
    rfl
  case brk =>
    cases h
    simp only [takeException, State.setPc_cpu, readWord_cpu, State.setI_cpu, push_cpu, fetch_cpu]
    rfl
  case rti =>
    cases h
    simp only [returnFromException, State.setPc_cpu, State.mapCpu, pull_cpu, dummyStack_cpu, dummyRead_cpu]
    rfl
  case nopU =>
    rcases unofficial_cpu h with h | hsame
    · cases h
      rw [nopAccesses_cpu]
    · rw [hsame]
  case jam =>
    cases h
    exact congrArg _ (dummyRead_cpu s.cpu.pc s)

end Machine

/-- Settles O45: instruction by instruction, what the listed writers leave of the registers is kept. -/
theorem writersOfRegistersAndFlags : Obligations.WritersOfRegistersAndFlags := by
  unfold Obligations.WritersOfRegistersAndFlags
  exact fun i s t h => Mnem.eq_of_kept_eq (Machine.exec_kept h)

/-! The reset values (R55, R56). -/

/-- Settles O49: the power-on state of every part is the table's, and an array that lists nothing reads as 0. -/
theorem resetValues : Obligations.ResetValues := by
  unfold Obligations.ResetValues
  have memories : ∀ n, Machine.State.reset.ram.read n = Machine.State.reset.cfg.ramInit.read n ∧
      Machine.State.reset.prgRam.read n = 0 ∧ Machine.State.reset.chrRam.read n = 0 ∧
      Machine.State.reset.ciram.read n = 0 := fun _ => ⟨rfl, rfl, rfl, rfl⟩
  exact ⟨rfl, rfl, memories, rfl, fun _ => ⟨rfl, rfl, rfl⟩, rfl, rfl, rfl, rfl⟩

end Sys2Proof
end

section
/-! The bus: reads and writes of memory, the open bus, and the OAM DMA (spec/20_memory.md). -/

namespace Sys2Proof.Machine

/-! The open bus (R78 to R80, R83, R85; spec/61_bus_mapper.md R381). -/

/-- The addresses of a read that no device and no memory drives. -/
def Undriven (s : State) (a : Addr) : Prop :=
  0x4000 ≤ a.toNat ∧ a.toNat < 0x6000 ∧ a.toNat ≠ 0x4015 ∧ a.toNat ≠ 0x4016 ∧ a.toNat ≠ 0x4017 ∨
    0x6000 ≤ a.toNat ∧ a.toNat < 0x8000 ∧ prgRamEnabled s.mapper = false

theorem busValue_undriven {a : Addr} {s : State} (h : Undriven s a) : busValue a s = s.bus.db := by
  unfold busValue
  dsimp only
  rcases h with ⟨hlo, hhi, h15, h16, h17⟩ | ⟨hlo, hhi, hoff⟩
  · rw [if_neg (by omega), if_neg (by omega), if_neg h15, if_neg h16, if_neg h17, if_pos hhi]
  · rw [if_neg (by omega), if_neg (by omega), if_neg (by omega), if_neg (by omega), if_neg (by omega), if_neg (by omega),
      if_pos hhi, hoff, if_neg Bool.false_ne_true]

/-- What is undriven stays so over time and reads: only writes enable PRG-RAM. -/
theorem Untouched.undriven {a : Addr} {s t : State} (h : Untouched s t) (hs : Undriven s a) : Undriven t a := by
  have henabled : prgRamEnabled t.mapper = prgRamEnabled s.mapper := by
    rw [← prgRamEnabled_registers, h.mapper, prgRamEnabled_registers]
  unfold Undriven
  rw [henabled]
  exact hs

/-- A read leaves `DB` at the byte it returned (spec/10_state.md R48). -/
theorem memRead_db (a : Addr) (s : State) : (memRead a s).2.bus.db = (memRead a s).1 := rfl

theorem memRead_undriven {a : Addr} {s : State} (h : Undriven s a) : (memRead a s).1 = (beginCycle (preRead s)).bus.db :=
  busValue_undriven (((preRead_untouched s).trans (beginCycle_untouched _)).undriven h)

/-! Where a write stores (R76; spec/61_bus_mapper.md R381). -/

/-- A write below 0x2000 is seen at every mirror of its address. -/
theorem memWrite_memoryByte_mirror {a b : Addr} (ha : a.toNat < 0x2000) (hb : b.toNat < 0x2000)
    (hab : b.toNat % 2048 = a.toNat % 2048) (v : Byte) (s : State) : (memWrite a v s).memoryByte b = v := by
  unfold State.memoryByte
  rw [if_pos hb, memWrite_ram, ramAfterWrite, if_pos ha, hab, Mem.read_write_same]

theorem memoryByte_prgRam {a : Addr} (hlo : 0x6000 ≤ a.toNat) (hhi : a.toNat < 0x8000) (s : State) :
    s.memoryByte a = s.prgRam.read (a.toNat - 0x6000) := by
  unfold State.memoryByte
  rw [if_neg (by omega), if_pos hhi]

/-- A write to PRG-RAM is seen there when it is enabled and not protected, and lost otherwise. -/
theorem memWrite_memoryByte_prgRam {a : Addr} (hlo : 0x6000 ≤ a.toNat) (hhi : a.toNat < 0x8000) (v : Byte) (s : State) :
    (memWrite a v s).memoryByte a = if prgRamWritable s.mapper then v else s.memoryByte a := by
  rw [memoryByte_prgRam hlo hhi, memoryByte_prgRam hlo hhi, memWrite_prgRam, prgRamAfterWrite]
  cases prgRamWritable s.mapper with
  | true => simp [hlo, hhi, Mem.read_write_same]
  | false => simp

/-! The cycles of an OAM DMA (R96). -/

/-- An idle cycle is one cycle and makes nothing due. -/
theorem idleCycle_spent {s : State} (h : Quiet s) : Spent 1 s (idleCycle s) where
  cyc := congrArg (· + 1) (beginCycle_counters s).1
  mclk := by
    show (beginCycle s).bus.mclk + (beginCycle s).image.region.cpuDiv = _
    rw [(beginCycle_counters s).2.1, (beginCycle_untouched s).image, Nat.one_mul]
  image := (beginCycle_untouched s).image
  hung := beginCycle_hung s
  quiet := by
    obtain ⟨hbus, hdmc⟩ := beginCycle_of_idle h.dmc
    exact ⟨(congrArg Bus.stall hbus).trans h.stall, (congrArg Bus.oamdmaPending hbus).trans h.oamDma, hdmc⟩

/-- A write outside the APU's registers is one cycle and makes nothing due. -/
theorem writeCycle_spent {a : Addr} (ha : ¬(0x4000 ≤ a.toNat ∧ a.toNat < 0x4018)) (v : Byte) {s : State} (h : Quiet s) :
    Spent 1 s (writeCycle a v s) where
  cyc := memWrite_cyc a v s
  mclk := by rw [Nat.one_mul]; exact memWrite_mclk a v s
  image := memWrite_image a v s
  hung := memWrite_hung a v s
  quiet := by
    obtain ⟨hbus, hdmc⟩ := beginCycle_of_idle h.dmc
    have hapu : apuAfterWrite a v (beginCycle s) = (beginCycle s).apu := if_neg (by simpa using ha)
    refine ⟨(congrArg Bus.stall hbus).trans h.stall, ?_, (congrArg (·.dmc.remaining) hapu).trans hdmc⟩
    show ((beginCycle s).bus.oamdmaPending || a.toNat == 0x4014) = false
    rw [hbus, h.oamDma, beq_eq_false_iff_ne.mpr (by omega)]
    rfl

/-- A transfer is a read cycle and a write cycle, wherever it reads. -/
theorem dmaCopy_spent (page : Byte) (n : Nat) : ∀ i s, Quiet s → Spent (2 * n) s (dmaCopy page n i s) := by
  induction n with
  | zero => exact fun _ _ h => Spent.refl h
  | succ n ih =>
    intro i s h
    have hread := readCycle_spent (word page (BitVec.ofNat 8 i)) h
    have hwrite := hread.trans
      (writeCycle_spent (a := 0x2004) (by decide) (readCycle (word page (BitVec.ofNat 8 i)) s).1 hread.quiet)
    rw [show 2 * (n + 1) = 1 + 1 + 2 * n by omega]
    exact hwrite.trans (ih (i + 1) _ hwrite.quiet)

/-- The state in which an OAM DMA starts: its request is gone. -/
def dmaStarted (s : State) : State := { s with bus := { s.bus with oamdmaPending := false } }

theorem dmaAlign_eq (s : State) : dmaAlign s =
    if (idleCycle (dmaStarted s)).bus.cyc % 2 = 1 then idleCycle (idleCycle (dmaStarted s)) else idleCycle (dmaStarted s) :=
  rfl

/-- The transfers begin on an even cycle: from an odd one after one idle cycle, from an even one after two. -/
theorem dmaAlign_spent {s : State} (h : Quiet (dmaStarted s)) :
    Spent (if s.bus.cyc % 2 = 0 then 2 else 1) (dmaStarted s) (dmaAlign s) := by
  have hidle := idleCycle_spent h
  have hcyc : (idleCycle (dmaStarted s)).bus.cyc = s.bus.cyc + 1 := hidle.cyc
  rw [dmaAlign_eq, hcyc]
  by_cases heven : s.bus.cyc % 2 = 0
  · rw [if_pos heven, if_pos (by omega)]
    exact hidle.trans (idleCycle_spent hidle.quiet)
  · rw [if_neg heven, if_neg (by omega)]
    exact hidle

theorem runDma_spent {s : State} (h : Quiet (dmaStarted s)) :
    Spent (if s.bus.cyc % 2 = 0 then 514 else 513) (dmaStarted s) (runDma s) := by
  have halign := dmaAlign_spent h
  have hrun := halign.trans (dmaCopy_spent s.bus.oamdmaPage 256 0 _ halign.quiet)
  have hcost : (if s.bus.cyc % 2 = 0 then 2 else 1) + 2 * 256 = if s.bus.cyc % 2 = 0 then 514 else 513 := by
    split <;> rfl
  rw [hcost] at hrun
  exact hrun

/-- With no stall cycle due, a requested OAM DMA runs before the read's own cycle (R96). -/
theorem memRead_of_dma (a : Addr) {s : State} (hstall : s.bus.stall = 0) (hdma : s.bus.oamdmaPending = true) :
    memRead a s = readCycle a (drainStall (runDma s)) := by
  have hdrain := drainStall_of_no_stall hstall
  unfold memRead
  rw [preRead_of_dma (by rw [hdrain]; exact hdma), hdrain]

theorem memRead_spent_dma (a : Addr) {s : State} (hstall : s.bus.stall = 0) (hdma : s.bus.oamdmaPending = true)
    (hdmc : s.apu.dmc.remaining = 0) :
    Spent ((if s.bus.cyc % 2 = 0 then 514 else 513) + 1) (dmaStarted s) (memRead a s).2 := by
  have hrun := runDma_spent (s := s) ⟨hstall, rfl, hdmc⟩
  rw [memRead_of_dma a hstall hdma, drainStall_of_no_stall hrun.quiet.stall]
  exact hrun.trans (readCycle_spent a hrun.quiet)

/-! What an OAM DMA copies (R96; spec/62_ppu.md R439). -/

theorem flagDot_oamaddr (rg : Region) (line d : Nat) (p : Ppu) : (flagDot rg line d p).oamaddr = p.oamaddr := by
  unfold flagDot
  simp only [apply_ite Ppu.oamaddr, ite_self]

theorem advanceDot_oamaddr (rg : Region) (p : Ppu) : (advanceDot rg p).oamaddr = p.oamaddr := by
  unfold advanceDot
  simp only [apply_ite Ppu.oamaddr, ite_self]

/-- OAMADDR stands still while rendering is off: only the sprite fetches of a rendered line clear it (spec/62_ppu.md R489). -/
theorem runDot_oamaddr {s : State} (h : s.ppu.renderingEnabled = false) : (runDot s).ppu.oamaddr = s.ppu.oamaddr := by
  have hnow : s.ppu.renderingNow s.image.region = false := by
    unfold Ppu.renderingNow
    rw [h, Bool.false_and]
  rw [runDot_ppu, advanceDot_oamaddr]
  unfold ppuDotWork
  simp only [hnow, Bool.false_eq_true, if_false, flagDot_oamaddr]
  split <;> rfl

theorem ppuAfterRead_oamaddr (a : Addr) (s : State) : (ppuAfterRead a s).oamaddr = s.ppu.oamaddr := by
  unfold ppuAfterRead ppuRegRead
  split
  · split
    · rfl
    · rfl
    · unfold ppuReadData
      dsimp only
      rw [Ppu.bump_eq]
    · rfl
  · rfl

/-- What a write of `v` to OAMDATA stores at `a`: an attribute byte has no bits 4:2 (R439). -/
def oamStored (a v : Byte) : Byte := if a.toNat % 4 = 2 then v &&& 0xE3 else v

/-- A write to OAMDATA while rendering is off (R439). -/
theorem busWrite_oamData {s : State} (h : s.ppu.renderingEnabled = false) (v : Byte) :
    (busWrite 0x2004 v s).ppu.oamaddr = s.ppu.oamaddr + 1 ∧
    (busWrite 0x2004 v s).ppu.oam = s.ppu.oam.write s.ppu.oamaddr.toNat (oamStored s.ppu.oamaddr v) := by
  have hnow : ({ s.ppu with ioLatch := v } : Ppu).renderingNow s.image.region = false := by
    show (s.ppu.renderingEnabled && _) = false
    rw [h, Bool.false_and]
  have hppu : (busWrite 0x2004 v s).ppu = ppuWriteOam s.image.region v { s.ppu with ioLatch := v } := rfl
  rw [hppu]
  unfold ppuWriteOam
  rw [hnow, if_neg Bool.false_ne_true]
  exact ⟨rfl, rfl⟩

/-- `t` comes from `s` by `k` transfers of the OAM DMA requested in `s`, from a page of memory, and by idle cycles and reads. -/
structure DmaCopied (s : State) (k : Nat) (t : State) : Prop where
  untouched : Untouched s t
  started : t.bus.oamdmaPending = false
  oamaddr : t.ppu.oamaddr = s.ppu.oamaddr + BitVec.ofNat 8 k
  oam : ∀ i : Byte, i.toNat < k → t.ppu.oam.read (s.ppu.oamaddr + i).toNat =
    oamStored (s.ppu.oamaddr + i) (s.memoryByte (word s.bus.oamdmaPage i))

theorem Untouched.renderingEnabled {s t : State} (h : Untouched s t) :
    t.ppu.renderingEnabled = s.ppu.renderingEnabled := by
  unfold Ppu.renderingEnabled
  rw [h.mask]

theorem DmaCopied.of_same {s t u : State} {k : Nat} (h : DmaCopied s k t) (hu : Untouched t u)
    (hdma : u.bus.oamdmaPending = false) (haddr : u.ppu.oamaddr = t.ppu.oamaddr) (hoam : u.ppu.oam = t.ppu.oam) :
    DmaCopied s k u :=
  ⟨h.untouched.trans hu, hdma, haddr.trans h.oamaddr, fun i hi => by rw [hoam]; exact h.oam i hi⟩

/-- With rendering off, time and reads undo no transfer. -/
theorem dmaCopied_stable {s : State} (hoff : s.ppu.renderingEnabled = false) (k : Nat) : BusStable (DmaCopied s k) where
  dot t h := h.of_same (runDot_untouched t) h.started (runDot_oamaddr (h.untouched.renderingEnabled.trans hoff)) (runDot_oam t)
  tick t h := by
    have hu := apuTick_untouched t
    rw [apuTick_eq] at hu ⊢
    exact h.of_same hu h.started rfl rfl
  access a t h := by
    obtain ⟨-, -, -, -, -, hoam, -⟩ := ppuAfterRead_regs a t
    exact h.of_same (busRead_untouched a t) h.started (ppuAfterRead_oamaddr a t) hoam
  finish t h := h.of_same ((untouched_stable t).finish t (Untouched.refl t)) h.started rfl rfl
  stall t n h := h.of_same ((untouched_stable t).stall t n (Untouched.refl t)) h.started rfl rfl
  dmaStart t h := h.of_same ((untouched_stable t).dmaStart t (Untouched.refl t)) rfl rfl rfl
  hang t h := h.of_same ((untouched_stable t).hang t (Untouched.refl t)) h.started rfl rfl
  dma := Or.inl fun _ h => h.started

/-- The write of byte `k` of the page to OAMDATA. -/
theorem DmaCopied.write {s t : State} {k : Nat} (hoff : s.ppu.renderingEnabled = false) (h : DmaCopied s k t) :
    DmaCopied s (k + 1) (busWrite 0x2004 (s.memoryByte (word s.bus.oamdmaPage (BitVec.ofNat 8 k))) t) := by
  obtain ⟨haddr, hoam⟩ := busWrite_oamData (h.untouched.renderingEnabled.trans hoff)
    (s.memoryByte (word s.bus.oamdmaPage (BitVec.ofNat 8 k)))
  refine ⟨h.untouched.trans (oamWrite_untouched _ t), ?_, ?_, fun i hi => ?_⟩
  · show (t.bus.oamdmaPending || _) = false
    rw [h.started]
    rfl
  · rw [haddr, h.oamaddr, BitVec.ofNat_add, BitVec.add_assoc]
    rfl
  · rw [hoam, h.oamaddr]
    by_cases hik : i = BitVec.ofNat 8 k
    · rw [hik, Mem.read_write_same]
    · have hlt : i.toNat < k := by
        have : i.toNat ≠ k := fun he => hik (by rw [← he, BitVec.ofNat_toNat, BitVec.setWidth_eq])
        omega
      rw [Mem.read_write_other, h.oam i hlt]
      exact fun he => hik ((BitVec.add_right_inj _).mp (BitVec.eq_of_toNat_eq he)).symm

theorem readCycle_value {a : Addr} {s : State} (h : placeable s a = true) : (readCycle a s).1 = s.memoryByte a := by
  have hu := beginCycle_untouched s
  show busValue a (beginCycle s) = s.memoryByte a
  rw [busValue_placeable (by rw [hu.placeable, h]), hu.memoryByte]

/-- `n` transfers more of an OAM DMA from a page of work RAM. -/
theorem DmaCopied.dmaCopy {s : State} (hoff : s.ppu.renderingEnabled = false) (hpage : s.bus.oamdmaPage.toNat < 0x20)
    (n : Nat) : ∀ k t, DmaCopied s k t → DmaCopied s (k + n) (dmaCopy s.bus.oamdmaPage n k t) := by
  induction n with
  | zero => exact fun _ _ h => h
  | succ n ih =>
    intro k t h
    have hmem : placeable t (word s.bus.oamdmaPage (BitVec.ofNat 8 k)) = true :=
      placeable_of_ram (by rw [word_toNat]; have := (BitVec.ofNat 8 k).isLt; omega)
    have hread := (dmaCopied_stable hoff k).readCycle (word s.bus.oamdmaPage (BitVec.ofNat 8 k)) h
    have hwrite := (dmaCopied_stable hoff (k + 1)).finish _
      (((dmaCopied_stable hoff k).beginCycle hread).write hoff)
    rw [← h.untouched.memoryByte, ← readCycle_value hmem] at hwrite
    rw [show k + (n + 1) = k + 1 + n by omega]
    exact ih (k + 1) _ hwrite

theorem BusStable.dmaAlign {P : State → Prop} (h : BusStable P) {s : State} (hs : P (dmaStarted s)) : P (dmaAlign s) := by
  rw [dmaAlign_eq]
  split
  · exact h.idleCycle (h.idleCycle hs)
  · exact h.idleCycle hs

/-- Before its first transfer an OAM DMA has copied nothing. -/
theorem dmaCopied_dmaStarted (s : State) : DmaCopied s 0 (dmaStarted s) :=
  ⟨(untouched_stable s).dmaStart s (Untouched.refl s), rfl, (BitVec.add_zero _).symm, fun _ hi => absurd hi (Nat.not_lt_zero _)⟩

theorem memRead_dmaCopied (a : Addr) {s : State} (hstall : s.bus.stall = 0) (hdma : s.bus.oamdmaPending = true)
    (hoff : s.ppu.renderingEnabled = false) (hpage : s.bus.oamdmaPage.toNat < 0x20) : DmaCopied s 256 (memRead a s).2 := by
  have halign := (dmaCopied_stable hoff 0).dmaAlign (dmaCopied_dmaStarted s)
  have hrun : DmaCopied s 256 (runDma s) := DmaCopied.dmaCopy hoff hpage 256 0 _ halign
  have hstable := dmaCopied_stable hoff 256
  rw [memRead_of_dma a hstall hdma]
  exact hstable.readCycle a (hstable.drainStall hrun)

end Sys2Proof.Machine

namespace Sys2Proof

/-- Settles O9: what precedes the access leaves the byte there, and a read of memory touches nothing. -/
theorem readMemory : Obligations.ReadMemory := by
  unfold Obligations.ReadMemory
  intro a s h
  have hvalue := Machine.memRead_value h
  exact ⟨hvalue, (Machine.memRead_db a s).trans hvalue, Machine.memRead_cpu a s, Machine.memRead_untouched a s,
    Machine.memRead_oam a⟩

/-- Settles O10: nothing before the access drives an undriven address, and in a quiet state nothing before it changes `DB`. -/
theorem openBus : Obligations.OpenBus := by
  unfold Obligations.OpenBus
  intro a s h
  have hvalue := Machine.memRead_undriven h
  refine ⟨hvalue, Machine.memRead_db a s, fun q => ?_⟩
  rw [hvalue, Machine.preRead_of_quiet q, (Machine.beginCycle_of_idle q.dmc).1]

/-- Settles O11: the frame is that of a store, and the two clauses on memory are reads after a write. -/
theorem writeMemory : Obligations.WriteMemory := by
  unfold Obligations.WriteMemory
  intro a v s
  exact ⟨Machine.memWrite_cpu a v s, Machine.memWrite_image a v s, rfl,
    (Machine.StoreFrame.of_readOnly (Machine.ReadOnly.refl s) a).memWrite v,
    fun ha b hb hab => Machine.memWrite_memoryByte_mirror ha hb hab v s,
    fun hlo hhi => Machine.memWrite_memoryByte_prgRam hlo hhi v s⟩

/-- Settles O13: one or two idle cycles, 256 transfers of two cycles, and the read's own cycle. -/
theorem oamDmaCost : Obligations.OamDmaCost := by
  unfold Obligations.OamDmaCost
  intro a s hstall hdma hdmc
  have h := Machine.memRead_spent_dma a hstall hdma hdmc
  exact ⟨h.cyc, h.quiet.oamDma⟩

/-- Settles O14, by induction on the transfers: after `k` of them the first `k` bytes stand in sprite memory and OAMADDR has
advanced by `k`, so after 256 it has come round. -/
theorem oamDmaCopies : Obligations.OamDmaCopies := by
  unfold Obligations.OamDmaCopies
  intro a s hstall hdma _ hoff hpage
  have h := Machine.memRead_dmaCopied a hstall hdma hoff hpage
  exact ⟨h.oamaddr.trans (BitVec.add_zero _), fun i => h.oam i i.isLt⟩

end Sys2Proof
end

section
/-! Decoding and encoding (spec/30_encoding.md R120, R121, R125, R127). -/

namespace Sys2Proof

theorem decode_of_b0 {op : Byte} {i : Instr} (h : opcodeShape op = .b0 i) (tl : List Byte) :
    decode (op :: tl) = .ok (i, tl) := by
  simp only [decode, h]

theorem decode_of_b1 {op : Byte} {f : Byte → Instr} (h : opcodeShape op = .b1 f) (x : Byte) (tl : List Byte) :
    decode (op :: x :: tl) = .ok (f x, tl) := by
  simp only [decode, h]

theorem decode_of_b2 {op : Byte} {f : Byte → Byte → Instr} (h : opcodeShape op = .b2 f) (x y : Byte) (tl : List Byte) :
    decode (op :: x :: y :: tl) = .ok (f x y, tl) := by
  simp only [decode, h]

/-- The map holds at an instruction's opcode the constructor that its operand bytes complete. -/
theorem decode_encode (i : Instr) (rest : List Byte) : decode (encode i ++ rest) = .ok (i, rest) := by
  unfold encode
  obtain ⟨hshape, hbytes⟩ | ⟨f, x, hshape, rfl, hbytes⟩ | ⟨f, x, y, hshape, rfl, hbytes⟩ := opcodeShape_opcode i
  · rw [hbytes]
    exact decode_of_b0 hshape rest
  · rw [hbytes]
    exact decode_of_b1 hshape x rest
  · rw [hbytes]
    exact decode_of_b2 hshape x y rest

/-- What the map holds at an opcode value has that opcode and asks for the operand bytes that it gets. -/
theorem bytes_of_decode {op : Byte} {tl r : List Byte} {i : Instr} (h : decode (op :: tl) = .ok (i, r)) :
    i.opcode = op ∧ tl = i.form.bytes ++ r := by
  refine ⟨Machine.decode_opcode h, ?_⟩
  unfold decode at h
  obtain ⟨j, hshape, -, hbytes⟩ | ⟨f, hshape, hf⟩ | ⟨f, hshape, hf⟩ := shapeSound op
  · simp only [hshape] at h
    cases tl <;> cases h <;> rw [hbytes] <;> rfl
  · simp only [hshape] at h
    cases tl with
    | nil => cases h
    | cons x tl =>
      cases h
      rw [(hf x).2]
      rfl
  · simp only [hshape] at h
    rcases tl with - | ⟨x, - | ⟨y, tl⟩⟩
    · cases h
    · cases h
    · cases h
      rw [(hf x y).2]
      rfl

theorem instrLength_opcode (i : Instr) : instrLength i.opcode = i.form.bytes.length + 1 := by
  unfold instrLength
  obtain ⟨hshape, hbytes⟩ | ⟨f, x, hshape, -, hbytes⟩ | ⟨f, x, y, hshape, -, hbytes⟩ := opcodeShape_opcode i <;>
    rw [hshape, hbytes] <;> rfl

/-- As many bytes as the opcode's length are an instruction (R126, R127). -/
theorem decode_of_length {op : Byte} {tl : List Byte} (h : instrLength op ≤ tl.length + 1) :
    ∃ i r, decode (op :: tl) = .ok (i, r) := by
  unfold instrLength at h
  obtain ⟨i, hshape, -⟩ | ⟨f, hshape, -⟩ | ⟨f, hshape, -⟩ := shapeSound op <;> simp only [hshape] at h
  · exact ⟨i, tl, decode_of_b0 hshape tl⟩
  · obtain ⟨x, tl, rfl⟩ := List.exists_cons_of_length_pos (show 0 < tl.length by omega)
    exact ⟨f x, tl, decode_of_b1 hshape x tl⟩
  · obtain ⟨x, tl, rfl⟩ := List.exists_cons_of_length_pos (show 0 < tl.length by omega)
    obtain ⟨y, tl, rfl⟩ := List.exists_cons_of_length_pos (show 0 < tl.length by rw [List.length_cons] at h; omega)
    exact ⟨f x y, tl, decode_of_b2 hshape x y tl⟩

/-- A table word whose bytes begin with an instruction's encoding decodes to it. -/
theorem decodeTableWord_eq {nbits w : Nat} {i : Instr} {rest : List Byte} (h : tableBytes nbits w = encode i ++ rest) :
    decodeTableWord nbits w = some i := by
  unfold decodeTableWord
  rw [h, decode_encode]

/-- Settles O1: the opcode map is the inverse of the opcode column. -/
theorem decodeOfEncode : Obligations.DecodeOfEncode := by
  unfold Obligations.DecodeOfEncode
  exact decode_encode

/-- Settles O2: what decodes has the first byte as its opcode and the next ones as its operand bytes. -/
theorem encodeOfDecode : Obligations.EncodeOfDecode := by
  unfold Obligations.EncodeOfDecode
  intro bytes rest i h
  cases bytes with
  | nil => cases h
  | cons op tl =>
    obtain ⟨hop, htl⟩ := bytes_of_decode h
    rw [htl, ← hop]
    rfl

/-- Settles O3: the bytes of each word are the encoding of its instruction and padding. -/
theorem decodeWords : Obligations.DecodeWords := by
  unfold Obligations.DecodeWords
  exact ⟨decodeTableWord_eq (rest := [0, 0]) rfl, decodeTableWord_eq (rest := [0]) rfl,
    decodeTableWord_eq (rest := []) rfl, decodeTableWord_eq (rest := []) rfl, decodeTableWord_eq (rest := [0]) rfl,
    decodeTableWord_eq (rest := [0]) rfl, decodeTableWord_eq (rest := [0, 0]) rfl, decodeTableWord_eq (rest := [0]) rfl,
    decodeTableWord_eq (rest := [0]) rfl, decodeTableWord_eq (rest := [0, 0]) rfl⟩

/-- Settles O4: the operand bytes are those of the format, and the format is fixed by the opcode byte. -/
theorem lengthByOpcode : Obligations.LengthByOpcode := by
  unfold Obligations.LengthByOpcode
  intro op rest
  have inverse : ∀ i r, decode (op :: rest) = .ok (i, r) →
      i.opcode = op ∧ rest = i.form.bytes ++ r ∧ instrLength op = i.form.bytes.length + 1 := by
    intro i r h
    obtain ⟨rfl, hrest⟩ := bytes_of_decode h
    exact ⟨rfl, hrest, instrLength_opcode i⟩
  refine ⟨⟨?_, decode_of_length⟩, fun i r h => ?_⟩
  · rintro ⟨i, r, h⟩
    obtain ⟨-, hrest, hlen⟩ := inverse i r h
    rw [hlen, hrest, List.length_append]
    omega
  · obtain ⟨hop, hrest, hlen⟩ := inverse i r h
    refine ⟨hop, ?_, ?_⟩
    · rw [hlen, hrest, Nat.add_sub_cancel, List.drop_left]
    · rw [hlen]
      generalize i.form = form
      rcases form with - | - | (- | m) | - | -
      case src.mem => cases m <;> rfl
      all_goals rfl

end Sys2Proof
end

section
/-! The formats of the mnemonics (spec/30_encoding.md R125), as far as the meanings of the instructions leave them open. -/

namespace Sys2Proof

/-- The mnemonics that have the implied format alone. -/
def Mnem.isImplied : Mnem → Bool
  | .tax | .tay | .txa | .tya | .tsx | .txs | .inx | .iny | .dex | .dey | .clc | .sec | .cli | .sei | .cld | .sed | .clv
  | .nop | .pha | .php | .pla | .plp | .rts | .rti | .brk | .jam => true
  | _ => false

/-- The forms that `isImplied` and `official` leave a mnemonic. -/
def Mnem.allows (m : Mnem) : Form → Bool
  | .imp => m.isImplied || m == .nopU
  | .src _ => !m.isImplied
  | .acc | .rel _ | .ind _ _ => m.official && !m.isImplied

theorem Instr.allows_form (i : Instr) : i.mnem.allows i.form = true := by
  cases i <;> rfl

theorem Instr.form_of_isImplied {i : Instr} (h : i.mnem.isImplied = true) : i.form = .imp := by
  have hallows := i.allows_form
  cases hf : i.form with
  | imp => rfl
  | _ => simp [hf, Mnem.allows, h] at hallows

theorem Instr.form_of_unofficial {i : Instr} (h : i.mnem.official = false) : i.form = .imp ∨ ∃ x, i.form = .src x := by
  have hallows := i.allows_form
  cases hf : i.form with
  | imp => exact .inl rfl
  | src x => exact .inr ⟨x, rfl⟩
  | _ => simp [hf, Mnem.allows, h] at hallows

theorem Instr.mnem_eq_jsr (i : Instr) : (i.mnem == .jsr) = (i.opcode == 0x20) := by
  cases i <;> rfl

end Sys2Proof
end

section
/-! Operands, and what instructions leave unchanged (spec/30_encoding.md R131, R132, R135 to R141). -/

namespace Sys2Proof.Machine

/-- The byte that a read-modify-write finds at a target in memory (R132). -/
theorem oldByte_value {m : MemOperand} {s : State} (h : placeable s (s.target m) = true) :
    oldByte m s = s.memoryByte (s.target m) := by
  have hu := effAddr_untouched .modify m s
  unfold oldByte
  rw [target_eq, memRead_value (by rw [hu.placeable, h]), hu.memoryByte]

/-- A store keeps the byte behind any address of memory but its own and its mirrors; that of PRG-ROM if it is below PRG-ROM, where
no write reaches the mapper. -/
theorem StoreFrame.memoryByte {ea b : Addr} {s t : State} (h : StoreFrame ea s t) (hb : placeable s b = true)
    (hrom : 0x8000 ≤ b.toNat → ea.toNat < 0x8000)
    (hne : ¬(ea = b ∨ ea.toNat < 0x2000 ∧ b.toNat < 0x2000 ∧ ea.toNat % 2048 = b.toNat % 2048)) :
    t.memoryByte b = s.memoryByte b := by
  obtain ⟨hself, hmirror⟩ := not_or.mp hne
  unfold State.memoryByte
  by_cases hram : b.toNat < 0x2000
  · rw [if_pos hram, if_pos hram]
    exact h.ram b hram fun ⟨hea, hmod⟩ => hmirror ⟨hea, hram, hmod⟩
  by_cases hlow : b.toNat < 0x8000
  · have hprgRam : 0x6000 ≤ b.toNat := by
      simp only [placeable, Bool.or_eq_true, Bool.and_eq_true, decide_eq_true_eq] at hb
      omega
    rw [if_neg hram, if_pos hlow, if_neg hram, if_pos hlow]
    exact h.prgRam b hprgRam hlow (Ne.symm hself)
  · have hmapper := h.mapper (hrom (by omega))
    rw [if_neg hram, if_neg hlow, if_neg hram, if_neg hlow]
    unfold prgByte
    rw [← prgOffset_registers, hmapper, prgOffset_registers, h.image]

/-- A documented instruction that stores has its documented meaning. -/
theorem unofficial_documented {i : Instr} {doc : State → Host.Outcome State Fault Refusal} {s t : State}
    (h : unofficial i doc s = .next t) (hmode : (s.cfg.unofficial == .documented) = true) : doc s = .next t := by
  unfold unofficial at h
  rwa [eq_of_beq hmode] at h

/-- The stores and read-modify-write instructions with a memory operand are one store each, at the target; the
address-high-byte stores have a target of their own. -/
theorem exec_stored {i : Instr} {m : MemOperand} {s t : State} (hst : i.stores s.cfg.unofficial = true)
    (hf : i.form = .src (.mem m)) (hjsr : i.mnem ≠ .jsr) (hsha : i.mnem ≠ .sha) (hshx : i.mnem ≠ .shx)
    (hshy : i.mnem ≠ .shy) (htas : i.mnem ≠ .tas) (h : exec i s = .next t) : ∃ v, Stored (s.target m) v s t := by
  rw [exec_eq_view] at h
  unfold execView at h
  unfold Instr.stores at hst
  have himplied : i.mnem.isImplied ≠ true := fun hi => by
    rw [Instr.form_of_isImplied hi] at hf
    cases hf
  cases hm : i.mnem <;> rw [hm] at h hst himplied <;> simp only [hf] at h hst
  case sta | stx | sty =>
    cases h
    exact ⟨_, storeOperand_stored _ m s⟩
  case sax =>
    cases unofficial_documented h hst
    exact ⟨_, storeOperand_stored _ m s⟩
  case asl | lsr | rol | ror | inc | dec =>
    cases h
    exact ⟨_, modifyOperand_stored _ m s⟩
  case slo | rla | sre | rra | dcp | isc =>
    cases unofficial_documented h hst
    exact ⟨_, modifyOperand_stored _ m s⟩
  case pha | php | brk => exact absurd rfl himplied
  case jsr => exact absurd hm hjsr
  case sha => exact absurd hm hsha
  case shx => exact absurd hm hshx
  case shy => exact absurd hm hshy
  case tas => exact absurd hm htas
  all_goals cases hst

end Sys2Proof.Machine

namespace Sys2Proof

/-- Settles O15: pointers are in page zero, which is memory, and what comes before the operand byte leaves memory untouched. -/
theorem effectiveAddress : Obligations.EffectiveAddress := by
  unfold Obligations.EffectiveAddress
  intro cls m s
  exact ⟨Machine.target_eq cls m s, Machine.effAddr_cpu cls m s, Machine.effAddr_untouched cls m s,
    fun h => ⟨Machine.readSrc_value h, Machine.oldByte_value h⟩⟩

/-- Settles O43: an instruction that stores nothing is made of reads and changes of registers. -/
theorem nonStoringFrame : Obligations.NonStoringFrame := by
  unfold Obligations.NonStoringFrame
  intro i s t hst h
  have hread := (Machine.readOnly_stable s).exec_of_not_stores i hst h (Machine.ReadOnly.refl s)
  exact ⟨hread.toUntouched, hread.oam⟩

/-- Settles O44: such an instruction is a store at its target, which its frame allows to change that byte alone. -/
theorem storingFrame : Obligations.StoringFrame := by
  unfold Obligations.StoringFrame
  intro i m s t hst hf hjsr hsha hshx hshy htas h
  obtain ⟨v, hstored⟩ := Machine.exec_stored hst hf hjsr hsha hshx hshy htas h
  rw [Machine.target_eq]
  exact ⟨hstored.frame, fun b => hstored.frame.memoryByte⟩

end Sys2Proof
end

section
/-! Fetching, decoding and running an instruction from memory (spec/30_encoding.md R127, R130; spec/60_exceptions.md R326). -/

namespace Sys2Proof.Machine

/-- `u` is `s` after the fetch of the bytes of `i` from memory: PC is past them, or at the third byte of JSR (R241). -/
structure Fetched (i : Instr) (s u : State) : Prop where
  untouched : Untouched s u
  cpu : u.cpu = { s.cpu with pc := s.cpu.pc + (if i.opcode = 0x20 then 2 else BitVec.ofNat 16 (instrLength i.opcode)) }

/-- With nothing that the poll takes, a step runs the instruction at PC (R326, R327). -/
theorem step_runs {s : State} (hpower : s.power ≠ .off) (hhung : s.hung = false) (hreset : s.bus.resetPending = false)
    (hnmi : s.bus.nmiPending = false) (hirq : irqTaken s = false) : step s = checkHung (runInstruction s) := by
  have hboundary : boundary s = runInstruction s := by
    unfold boundary
    rw [hreset, hnmi, hirq]
    rfl
  unfold step
  rw [if_neg hpower, hhung, if_neg Bool.false_ne_true, hboundary]

theorem fetched_mem {s : State} {i : Instr} {rest : List Byte} (hmem0 : placeable s s.cpu.pc = true)
    (hmem1 : placeable s (s.cpu.pc + 1) = true) (hmem2 : placeable s (s.cpu.pc + 2) = true)
    (hdecode : decode [s.memoryByte s.cpu.pc, s.memoryByte (s.cpu.pc + 1), s.memoryByte (s.cpu.pc + 2)] = .ok (i, rest)) :
    Fetched i s (fetchInstr s).2 := by
  obtain ⟨-, huntouched, hcpu⟩ := fetchInstr_mem s hmem0 hmem1 hmem2
  rw [← decode_opcode hdecode] at hcpu
  exact ⟨huntouched, hcpu⟩

end Sys2Proof.Machine

namespace Sys2Proof

/-- Settles O5: the bytes in memory are those fetched, and no access of the fetch is a write. -/
theorem stepRunsDecoded : Obligations.StepRunsDecoded := by
  unfold Obligations.StepRunsDecoded
  intro s i rest hpower hhung hreset hnmi hirq hmem0 hmem1 hmem2 hdecode
  have hfetched := Machine.fetched_mem hmem0 hmem1 hmem2 hdecode
  refine ⟨_, hfetched.untouched, hfetched.cpu, ?_⟩
  rw [Machine.step_runs hpower hhung hreset hnmi hirq, Machine.runInstruction_mem hmem0 hmem1 hmem2 hdecode]
  rfl

end Sys2Proof
end

section
/-! The cycles of an instruction, an interrupt entry and the reset sequence (spec/30_encoding.md R142 to R145). -/

namespace Sys2Proof.Machine

/-! The operations that read, and how many cycles they take when nothing steals one. -/

/-- The dummy and pointer reads of a memory format (R135 to R141). -/
def addrCycles (cls : AccClass) (crossed : Bool) : MemOperand → Nat
  | .zp _ | .abs _ _ => 0
  | .zpx _ | .zpy _ => 1
  | .abx _ _ | .aby _ _ => if cls = .read && !crossed then 0 else 1
  | .izx _ => 3
  | .izy _ => 2 + if cls = .read && !crossed then 0 else 1

/-- The accesses at the effective address (R131, R132). -/
def dataCycles : AccClass → Nat
  | .read | .write => 1
  | .modify => 3

/-- The table of R144 is the bytes of the instruction, the reads on the way to the address and the accesses there. -/
theorem memOperand_cycles (cls : AccClass) (crossed : Bool) (m : MemOperand) :
    m.cycles cls crossed = m.bytes.length + 1 + addrCycles cls crossed m + dataCycles cls := by
  cases m <;> cases cls <;> cases crossed <;> rfl

theorem zpPointer_lo8 (z : Byte) (s : State) : lo8 (zpPointer z s).1 = s.memoryByte (word 0x00 z) := by
  have hvalue : (zpPointer z s).1 = s.memoryWord (zeroPage z) (zeroPage (z + 1)) :=
    readWord_value (placeable_zeroPage s z) (placeable_zeroPage s (z + 1))
  rw [hvalue]
  exact lo8_word _ _

/-! The same after `n` cycles. -/

section chain
variable {n : Nat} {s t : State}

theorem Spent.memRead (h : Spent n s t) (a : Addr) : Spent (n + 1) s (memRead a t).2 := h.trans (memRead_spent a h.quiet)

theorem Spent.dummyRead (h : Spent n s t) (a : Addr) : Spent (n + 1) s (dummyRead a t) := h.memRead a

theorem Spent.fetch (h : Spent n s t) : Spent (n + 1) s (fetch t).2 := h.trans (fetch_spent h.quiet)

theorem Spent.readWord (h : Spent n s t) (lo hi : Addr) : Spent (n + 2) s (readWord lo hi t).2 :=
  h.trans (readWord_spent lo hi h.quiet)

theorem Spent.push (h : Spent n s t) (v : Byte) : Spent (n + 1) s (push v t) := h.trans (push_spent v h.quiet)

theorem Spent.pull (h : Spent n s t) : Spent (n + 1) s (pull t).2 := h.trans (pull_spent h.quiet)

theorem Spent.returnFromException (h : Spent n s t) : Spent (n + 3) s (returnFromException t) :=
  h.pull |>.cpu _ |>.pull |>.pull |>.cpu _

theorem Spent.interruptEntry (h : Spent n s t) (vec : Addr) : Spent (n + 7) s (interruptEntry vec t) := by
  have hdummy := (h.dummyRead t.cpu.pc).dummyRead (Machine.dummyRead t.cpu.pc t).cpu.pc
  exact hdummy.trans (takeException_spent vec false hdummy.quiet)

theorem Spent.resetStackCycle (h : Spent n s t) : Spent (n + 1) s (resetStackCycle t) := (h.dummyRead _).cpu _

end chain

theorem effAddr_spent (cls : AccClass) (m : MemOperand) {s : State} (h : Quiet s) :
    Spent (addrCycles cls (s.crossing m) m) s (effAddr cls m s).2 := by
  have habs : ∀ l u i, crosses (word u l) i = decide (256 ≤ l.toNat + i.toNat) := fun l u i => by
    rw [crosses, lo8_word]
  cases m with
  | zp z => exact Spent.refl h
  | zpx z => exact dummyRead_spent _ h
  | zpy z => exact dummyRead_spent _ h
  | abs l u => exact Spent.refl h
  | abx l u =>
    have hspent := indexed_spent cls (word u l) s.cpu.x h
    rwa [habs] at hspent
  | aby l u =>
    have hspent := indexed_spent cls (word u l) s.cpu.y h
    rwa [habs] at hspent
  | izx z => exact (dummyRead_spent _ h).trans (readWord_spent _ _ (dummyRead_spent _ h).quiet)
  | izy z =>
    have hpointer : Spent 2 s (zpPointer z s).2 := readWord_spent _ _ h
    have hspent := indexed_spent cls (zpPointer z s).1 s.cpu.y hpointer.quiet
    rw [crosses, zpPointer_lo8] at hspent
    exact hpointer.trans hspent

theorem crossing_eq {s u : State} (hu : Untouched s u) (hx : u.cpu.x = s.cpu.x) (hy : u.cpu.y = s.cpu.y) (m : MemOperand) :
    u.crossing m = s.crossing m := by
  cases m <;> simp only [State.crossing, hx, hy, hu.memoryByte]

/-- Clearing a request that the poll has seen takes no cycle. -/
theorem Spent.clearPending {s : State} (h : Quiet s) (reset nmi : Bool) :
    Spent 0 s { s with bus := { s.bus with resetPending := reset, nmiPending := nmi } } :=
  ⟨rfl, by rw [Nat.zero_mul, Nat.add_zero], rfl, rfl, ⟨h.stall, h.oamDma, h.dmc⟩⟩

theorem resetSequence_spent {s : State} (h : Quiet s) : Spent 7 s (resetSequence s) :=
  Spent.clearPending h false s.bus.nmiPending
    |>.dummyRead _ |>.dummyRead _ |>.resetStackCycle |>.resetStackCycle |>.resetStackCycle |>.cpu _
    |>.readWord 0xFFFC 0xFFFD |>.cpu _

theorem nmiEntry_spent {s : State} (h : Quiet s) : Spent 7 s (nmiEntry s) :=
  (Spent.clearPending h s.bus.resetPending false).interruptEntry 0xFFFA

theorem irqEntry_spent {s : State} (h : Quiet s) : Spent 7 s (irqEntry s) := (Spent.refl h).interruptEntry 0xFFFE

theorem instrLength_cases (op : Byte) : instrLength op = 1 ∨ instrLength op = 2 ∨ instrLength op = 3 := by
  unfold instrLength
  split
  · exact .inl rfl
  · exact .inr (.inl rfl)
  · exact .inr (.inr rfl)

/-- The fetch of an instruction is one cycle for each byte, without the third one of JSR (R130, R241). -/
theorem fetchInstr_spent {s : State} {op : Byte} (h : Quiet s) (hop : (fetch s).1 = op) :
    Spent (if op = 0x20 then 2 else instrLength op) s (fetchInstr s).2 := by
  have hone := fetch_spent h
  unfold fetchInstr
  dsimp only
  rw [hop]
  by_cases hjsr : op = 0x20
  · rw [if_pos hjsr, if_pos hjsr, hjsr]
    exact hone.fetch
  · rw [if_neg hjsr, if_neg hjsr]
    rcases instrLength_cases op with hlen | hlen | hlen <;> rw [hlen]
    · exact hone
    · exact hone.fetch
    · exact hone.fetch.fetch

/-! An instruction that ends with writes: nothing is said of what they make due. -/

/-- `t` comes `n` cycles after `s`, and no stall loop failed to end on the way. -/
structure Took (n : Nat) (s t : State) : Prop where
  cyc : t.bus.cyc = s.bus.cyc + n
  hung : t.hung = s.hung

section took
variable {n : Nat} {s t : State}

theorem Spent.took (h : Spent n s t) : Took n s t := ⟨h.cyc, h.hung⟩

theorem Took.update (h : Took n s t) (c : Cpu) (l : List Diagnostic) (j : Bool) :
    Took n s { t with cpu := c, diag := l, jamSeen := j } := ⟨h.cyc, h.hung⟩

theorem Took.memWrite (h : Took n s t) (a : Addr) (v : Byte) : Took (n + 1) s (memWrite a v t) where
  cyc := by rw [memWrite_cyc, h.cyc, Nat.add_assoc]
  hung := by rw [memWrite_hung, h.hung]

theorem storeHigh_took (reg : Byte) (base : Addr) (i : Byte) (h : Spent n s t) : Took (n + 2) s (storeHigh reg base i t) :=
  (h.trans (indexed_spent .write base i h.quiet)).took.memWrite _ _

theorem branch_took (c : Bool) (o : Byte) (h : Spent n s t) :
    Took (n + if c then if hi8 (branchTarget t.cpu.pc o) = hi8 t.cpu.pc then 1 else 2 else 0) s (branch c o t) := by
  cases c with
  | false => exact h.took
  | true =>
    have hdummy := h.dummyRead t.cpu.pc
    unfold branch
    rw [if_pos rfl, if_pos rfl]
    dsimp only
    split
    · exact hdummy.took.update _ _ _
    · exact (hdummy.dummyRead _).took.update _ _ _

end took

end Sys2Proof.Machine
end

section
/-! What the cycle table gives an instruction, by form and class (spec/30_encoding.md R144). -/

namespace Sys2Proof

/-- The instructions whose cycles R144 counts by name, not by format and class; the branches are not among them. -/
def Mnem.ownSequence : Mnem → Bool
  | .pha | .php | .pla | .plp | .jsr | .rts | .rti | .brk | .jmp => true
  | _ => false

theorem Mnem.ownSequence_of_unofficial {m : Mnem} (h : m.official = false) : m.ownSequence = false := by
  have htable : (m.official || !m.ownSequence) = true := by cases m <;> rfl
  rw [h, Bool.false_or] at htable
  exact Bool.eq_false_of_not_eq_true' htable

theorem Instr.accClass_of_official {i : Instr} (h : i.mnem.official = true) (mode : UnofficialMode) :
    i.accClass mode = i.mnem.accClass := by
  simp [Instr.accClass, h]

theorem Instr.accClass_documented (i : Instr) : i.accClass .documented = i.mnem.accClass := by
  simp [Instr.accClass]

theorem Instr.accClass_of_unofficial {i : Instr} (h : i.mnem.official = false) : i.accClass .nop = .read := by
  simp [Instr.accClass, h]

theorem Instr.cycles_of_form {i : Instr} (h : i.mnem.ownSequence = false) (s : Machine.State) :
    i.cycles s = match i.form with
      | .rel o =>
        if i.mnem.condition s.cpu = some true then
          (if hi8 (s.cpu.pc + 2 + o.signExtend 16) = hi8 (s.cpu.pc + 2) then 3 else 4)
        else 2
      | .src (.mem x) => x.cycles (i.accClass s.cfg.unofficial) (s.crossing x)
      | _ => 2 := by
  unfold Instr.cycles
  cases hm : i.mnem
  case pha | php | pla | plp | jsr | rts | rti | brk | jmp =>
    rw [hm] at h
    cases h
  all_goals rfl

end Sys2Proof

namespace Sys2Proof.Machine

/-! An instruction, from the fetch of its bytes to its end. -/

/-- The cycles of the fetch of an instruction: one for each byte, without the third one of JSR. -/
def fetchCycles (i : Instr) : Nat := if i.mnem = .jsr then 2 else i.form.bytes.length + 1

/-- `u` is `s` after the fetch of `i`, and nothing has stolen a cycle. -/
structure QuietFetched (i : Instr) (s u : State) : Prop extends Fetched i s u where
  spent : Spent (fetchCycles i) s u

section instr
variable {i : Instr} {s u t : State}

theorem fetchInstr_cycles (h : Quiet s) (hop : (fetch s).1 = i.opcode) : Spent (fetchCycles i) s (fetchInstr s).2 := by
  have hspent := fetchInstr_spent h hop
  have hjsr : i.opcode = 0x20 ↔ i.mnem = .jsr := by
    rw [← beq_iff_eq, ← i.mnem_eq_jsr, beq_iff_eq]
  unfold fetchCycles
  rwa [← instrLength_opcode, ← if_congr hjsr rfl rfl]

theorem QuietFetched.crossing (h : QuietFetched i s u) (m : MemOperand) : u.crossing m = s.crossing m :=
  crossing_eq h.untouched (by rw [h.cpu]) (by rw [h.cpu]) m

/-- The fetch takes a cycle for each byte, JSR apart. -/
theorem QuietFetched.spent_bytes (h : QuietFetched i s u) (hjsr : i.mnem ≠ .jsr) : Spent (i.form.bytes.length + 1) s u := by
  have hspent := h.spent
  rwa [fetchCycles, if_neg hjsr] at hspent

theorem ne_jsr_of_not_ownSequence {m : Mnem} (h : m.ownSequence = false) : m ≠ .jsr := by
  rintro rfl
  cases h

theorem QuietFetched.effAddr (h : QuietFetched i s u) {m : MemOperand} (hf : i.form = .src (.mem m))
    (hown : i.mnem.ownSequence = false) (cls : AccClass) :
    Spent (m.bytes.length + 1 + addrCycles cls (s.crossing m) m) s (effAddr cls m u).2 := by
  have hfetch := h.spent_bytes (ne_jsr_of_not_ownSequence hown)
  rw [hf] at hfetch
  rw [← h.crossing m]
  exact hfetch.trans (effAddr_spent cls m hfetch.quiet)

/-- A read-class instruction: its source is read, and nothing else. -/
theorem QuietFetched.readSrc (h : QuietFetched i s u) {x : Src} (hf : i.form = .src x) (hown : i.mnem.ownSequence = false)
    (hcls : i.accClass s.cfg.unofficial = .read) : Spent (i.cycles s) s (readSrc x u).2 := by
  rw [Instr.cycles_of_form hown, hf]
  cases x with
  | imm d =>
    have hfetch := h.spent_bytes (ne_jsr_of_not_ownSequence hown)
    rwa [hf] at hfetch
  | mem m =>
    dsimp only
    rw [hcls, memOperand_cycles]
    exact (h.effAddr hf hown .read).memRead _

theorem QuietFetched.storeOperand (h : QuietFetched i s u) {m : MemOperand} (hf : i.form = .src (.mem m))
    (hown : i.mnem.ownSequence = false) (hcls : i.accClass s.cfg.unofficial = .write) (v : Cpu → Byte) :
    Took (i.cycles s) s (storeOperand v m u) := by
  rw [Instr.cycles_of_form hown, hf]
  dsimp only
  rw [hcls, memOperand_cycles]
  exact (h.effAddr hf hown .write).took.memWrite _ _

theorem QuietFetched.modifyOperand (h : QuietFetched i s u) {m : MemOperand} (hf : i.form = .src (.mem m))
    (hown : i.mnem.ownSequence = false) (hcls : i.accClass s.cfg.unofficial = .modify) (f : Byte → Cpu → Byte × Cpu) :
    Took (i.cycles s) s (modifyOperand f m u) := by
  have hread := ((h.effAddr hf hown .modify).memRead (Machine.effAddr .modify m u).1).took
  rw [Instr.cycles_of_form hown, hf]
  dsimp only
  rw [hcls, memOperand_cycles]
  exact ((hread.memWrite _ _).update _ _ _).memWrite _ _

/-- An address-high-byte instruction whose operation `f` takes the two cycles of `storeHigh`. -/
theorem QuietFetched.onHigh (h : QuietFetched i s u) (hown : i.mnem.ownSequence = false)
    (hcls : i.accClass s.cfg.unofficial = .write) {f : Addr → Byte → State → State}
    (htook : ∀ n base j w, Spent n s w → Took (n + 2) s (f base j w)) (he : onHigh f u i.form = .next t) :
    Took (i.cycles s) s t := by
  have hfetch := h.spent_bytes (ne_jsr_of_not_ownSequence hown)
  rw [Instr.cycles_of_form hown]
  rcases onHigh_next he with ⟨l, k, hf, rfl⟩ | ⟨l, k, hf, rfl⟩ | ⟨z, hf, rfl⟩ <;>
    (rw [hf] at hfetch ⊢
     dsimp only
     rw [hcls])
  · exact htook 3 _ _ _ hfetch
  · exact htook 3 _ _ _ hfetch
  · exact htook 4 _ _ _ (hfetch.readWord _ _)

/-- An instruction without operand bytes that makes a dummy read at PC. -/
theorem QuietFetched.dummyRead (h : QuietFetched i s u) (hf : i.form.bytes = []) (hjsr : i.mnem ≠ .jsr) :
    Spent 2 s (Machine.dummyRead u.cpu.pc u) := by
  have hfetch := h.spent_bytes hjsr
  rw [hf] at hfetch
  exact hfetch.dummyRead _

/-- An instruction of the implied or the accumulator format that does no more. -/
theorem QuietFetched.implied (h : QuietFetched i s u) (hf : i.form = .imp ∨ i.form = .acc)
    (hown : i.mnem.ownSequence = false) : Spent (i.cycles s) s (Machine.dummyRead u.cpu.pc u) := by
  rw [Instr.cycles_of_form hown]
  have hdummy := fun hbytes => h.dummyRead hbytes (ne_jsr_of_not_ownSequence hown)
  rcases hf with hf | hf <;> rw [hf] at hdummy ⊢ <;> exact hdummy rfl

/-- The accesses of a read-class instruction of the same form: the unofficial NOP and the no-operation policy
(spec/46_unofficial.md R301 to R306, R312). -/
theorem QuietFetched.nopAccesses (h : QuietFetched i s u) (hoff : i.mnem.official = false)
    (hcls : i.accClass s.cfg.unofficial = .read) : Took (i.cycles s) s (nopAccesses i.form u) := by
  have hown := Mnem.ownSequence_of_unofficial hoff
  rcases Instr.form_of_unofficial hoff with hf | ⟨x, hf⟩
  · have himplied := (h.implied (.inl hf) hown).took
    rw [hf]
    exact himplied
  · rw [hf]
    exact (h.readSrc hf hown hcls).took

/-- An unofficial instruction takes its cycles under the no-operation policy, and so it does if its documented meaning does. -/
theorem QuietFetched.unofficial (h : QuietFetched i s u) {m : Mnem} (hm : i.mnem = m) (hoff : m.official = false)
    {doc : State → Host.Outcome State Fault Refusal} (he : unofficial i doc u = .next t)
    (hdoc : i.accClass s.cfg.unofficial = m.accClass → doc u = .next t → Took (i.cycles s) s t) :
    Took (i.cycles s) s t := by
  subst hm
  rcases unofficial_next he with ⟨hmode, he⟩ | ⟨hmode, rfl⟩ <;> rw [h.untouched.cfg] at hmode
  · exact hdoc (by rw [hmode, Instr.accClass_documented]) he
  · exact (h.nopAccesses hoff (by rw [hmode, Instr.accClass_of_unofficial hoff])).update _ _ _

/-- A branch (R142). -/
theorem QuietFetched.branch (h : QuietFetched i s u) {o : Byte} {c : Bool} (hf : i.form = .rel o)
    (hown : i.mnem.ownSequence = false) (hc : i.mnem.condition u.cpu = some c) : Took (i.cycles s) s (branch c o u) := by
  have hjsr := ne_jsr_of_not_ownSequence hown
  have hop : i.opcode ≠ 0x20 := fun hop => hjsr (by rw [← beq_iff_eq, i.mnem_eq_jsr, hop]; rfl)
  have hfetch := h.spent_bytes hjsr
  have hpc : u.cpu.pc = s.cpu.pc + 2 := by
    rw [h.cpu, if_neg hop, instrLength_opcode, hf]
    rfl
  have hcond : i.mnem.condition s.cpu = some c := by
    rw [← hc, h.cpu]
    cases i.mnem <;> rfl
  have htook := branch_took c o hfetch
  rw [hf, hpc] at htook
  rw [Instr.cycles_of_form hown, hf]
  dsimp only
  rw [hcond]
  cases c with
  | false => exact htook
  | true =>
    unfold branchTarget at htook
    rw [if_pos rfl] at htook ⊢
    by_cases hpage : hi8 (s.cpu.pc + 2 + o.signExtend 16) = hi8 (s.cpu.pc + 2)
    · rw [if_pos hpage] at htook ⊢
      exact htook
    · rw [if_neg hpage] at htook ⊢
      exact htook

/-- Every instruction takes the cycles of R144. -/
theorem QuietFetched.exec (h : QuietFetched i s u) (he : exec i u = .next t) : Took (i.cycles s) s t := by
  have himplied := fun hi : i.mnem.isImplied = true => Instr.form_of_isImplied hi
  have hown : ∀ {m}, i.mnem = m → m.ownSequence = false → i.mnem.ownSequence = false := by
    rintro m rfl hm
    exact hm
  have hofficial : ∀ {m}, i.mnem = m → m.official = true → i.accClass s.cfg.unofficial = m.accClass := by
    rintro m rfl hm
    exact Instr.accClass_of_official hm _
  rw [exec_eq_view] at he
  unfold execView at he
  cases hm : i.mnem <;> rw [hm] at he himplied <;> dsimp only at he
  case lda | ldx | ldy | adc | sbc | and | ora | eor | cmp | cpx | cpy | bit =>
    obtain ⟨x, hf, rfl⟩ := onSrc_next he
    exact (h.readSrc hf (hown hm rfl) (hofficial hm rfl)).took.update _ _ _
  case lax | las | anc | alr | arr | axs | sbcU | xaa | lxa =>
    refine h.unofficial hm rfl he fun hcls hdoc => ?_
    obtain ⟨x, hf, rfl⟩ := onSrc_next hdoc
    exact (h.readSrc hf (hown hm rfl) hcls).took.update _ _ _
  case nopU =>
    refine h.unofficial hm rfl he fun hcls hdoc => ?_
    cases hdoc
    exact h.nopAccesses (by rw [hm]; rfl) hcls
  case sta | stx | sty =>
    obtain ⟨m, hf, rfl⟩ := onMem_next he
    exact h.storeOperand hf (hown hm rfl) (hofficial hm rfl) _
  case sax =>
    refine h.unofficial hm rfl he fun hcls hdoc => ?_
    obtain ⟨m, hf, rfl⟩ := onMem_next hdoc
    exact h.storeOperand hf (hown hm rfl) hcls _
  case asl | lsr | rol | ror =>
    rcases onMemAcc_next he with ⟨m, hf, rfl⟩ | ⟨hf, rfl⟩
    · exact h.modifyOperand hf (hown hm rfl) (hofficial hm rfl) _
    · exact (h.implied (.inr hf) (hown hm rfl)).took.update _ _ _
  case inc | dec =>
    obtain ⟨m, hf, rfl⟩ := onMem_next he
    exact h.modifyOperand hf (hown hm rfl) (hofficial hm rfl) _
  case slo | rla | sre | rra | dcp | isc =>
    refine h.unofficial hm rfl he fun hcls hdoc => ?_
    obtain ⟨m, hf, rfl⟩ := onMem_next hdoc
    exact h.modifyOperand hf (hown hm rfl) hcls _
  case sha | shx | shy =>
    refine h.unofficial hm rfl he fun hcls hdoc => ?_
    exact h.onHigh (hown hm rfl) hcls (fun n base j w hw => storeHigh_took _ base j hw) hdoc
  case tas =>
    refine h.unofficial hm rfl he fun hcls hdoc => ?_
    exact h.onHigh (hown hm rfl) hcls (fun n base j w hw => storeHigh_took _ base j (hw.cpu _)) hdoc
  case tax | tay | txa | tya | tsx | txs | inx | iny | dex | dey | clc | sec | cli | sei | cld | sed | clv | nop =>
    cases he
    exact (h.implied (.inl (himplied rfl)) (hown hm rfl)).took.update _ _ _
  case jam =>
    cases he
    exact (h.implied (.inl (himplied rfl)) (hown hm rfl)).took.update _ _ _
  case bcc | bcs | beq | bne | bmi | bpl | bvc | bvs =>
    obtain ⟨o, hf, rfl⟩ := onRel_next he
    exact h.branch hf (hown hm rfl) (by rw [hm]; rfl)
  case pha | php =>
    cases he
    have hdummy := h.dummyRead (by rw [himplied rfl]; rfl) (by rw [hm]; decide)
    rw [Instr.cycles, hm]
    exact (hdummy.push _).took
  case pla | plp =>
    cases he
    have hdummy := h.dummyRead (by rw [himplied rfl]; rfl) (by rw [hm]; decide)
    rw [Instr.cycles, hm]
    exact (hdummy.dummyRead _).pull.took.update _ _ _
  case rts =>
    cases he
    have hdummy := h.dummyRead (by rw [himplied rfl]; rfl) (by rw [hm]; decide)
    rw [Instr.cycles, hm]
    exact (hdummy.dummyRead _ |>.pull |>.pull |>.cpu _ |>.dummyRead _).took.update _ _ _
  case rti =>
    cases he
    have hdummy := h.dummyRead (by rw [himplied rfl]; rfl) (by rw [hm]; decide)
    rw [Instr.cycles, hm]
    exact (hdummy.dummyRead _).returnFromException.took
  case brk =>
    cases he
    have hfetch := h.spent_bytes (by rw [hm]; decide)
    rw [himplied rfl] at hfetch
    rw [Instr.cycles, hm]
    exact (hfetch.fetch.trans (takeException_spent _ _ hfetch.fetch.quiet)).took
  case jmp =>
    have hfetch := h.spent_bytes (by rw [hm]; decide)
    rw [Instr.cycles, hm]
    rcases onJump_next he with ⟨l, k, hf, rfl⟩ | ⟨l, k, hf, rfl⟩ <;> rw [hf] at hfetch ⊢
    · exact hfetch.took.update _ _ _
    · exact (hfetch.readWord _ _).took.update _ _ _
  case jsr =>
    have hfetch := h.spent
    rw [fetchCycles, if_pos hm] at hfetch
    rw [Instr.cycles, hm]
    split at he
    · cases he
      exact (hfetch.dummyRead _ |>.push _ |>.push _ |>.memRead _).took.update _ _ _
    · cases he

end instr

/-- `exec` answers a next state under each policy if the documented meaning does. -/
theorem unofficial_exists (i : Instr) {doc : State → Host.Outcome State Fault Refusal} {s : State}
    (h : ∃ t, doc s = .next t) : ∃ t, unofficial i doc s = .next t := by
  unfold unofficial
  cases s.cfg.unofficial with
  | documented => exact h
  | nop => exact ⟨_, rfl⟩

theorem checkHung_next {t : State} (h : t.hung = false) : checkHung (.next t) = .next t :=
  if_neg (by rw [h]; exact Bool.false_ne_true)

theorem exec_exists (i : Instr) (s : State) : ∃ t, exec i s = .next t := by
  cases i <;>
    first
    | exact ⟨_, rfl⟩
    | exact unofficial_exists _ ⟨_, rfl⟩

theorem quietFetched_mem {s : State} {i : Instr} {rest : List Byte} (h : Quiet s) (hmem0 : placeable s s.cpu.pc = true)
    (hmem1 : placeable s (s.cpu.pc + 1) = true) (hmem2 : placeable s (s.cpu.pc + 2) = true)
    (hdecode : decode [s.memoryByte s.cpu.pc, s.memoryByte (s.cpu.pc + 1), s.memoryByte (s.cpu.pc + 2)] = .ok (i, rest)) :
    QuietFetched i s (fetchInstr s).2 :=
  ⟨fetched_mem hmem0 hmem1 hmem2 hdecode, fetchInstr_cycles h ((fetch_value hmem0).trans (decode_opcode hdecode).symm)⟩

end Sys2Proof.Machine

namespace Sys2Proof

/-- Settles O8: the fetch takes its cycles and so does each mnemonic's operation; no stall loop runs, so the step has a next
state. -/
theorem cycleCounts : Obligations.CycleCounts := by
  unfold Obligations.CycleCounts
  refine ⟨?_, fun s h =>
    ⟨(Machine.resetSequence_spent h).cyc, (Machine.nmiEntry_spent h).cyc, (Machine.irqEntry_spent h).cyc⟩⟩
  intro s i rest hquiet hpower hhung hreset hnmi hirq hmem0 hmem1 hmem2 hdecode
  have hfetched := Machine.quietFetched_mem hquiet hmem0 hmem1 hmem2 hdecode
  obtain ⟨t, hexec⟩ := Machine.exec_exists i (Machine.fetchInstr s).2
  have htook := hfetched.exec hexec
  refine ⟨t, ?_, htook.cyc⟩
  rw [Machine.step_runs hpower hhung hreset hnmi hirq, Machine.runInstruction_mem hmem0 hmem1 hmem2 hdecode, hexec]
  exact Machine.checkHung_next (htook.hung.trans hhung)

end Sys2Proof
end

section
/-! Loads, stores and register transfers (spec/40_load_store_transfer.md). -/

namespace Sys2Proof.Machine

/-- Under the documented behaviour an unofficial instruction runs its documented meaning (spec/46_unofficial.md R312). -/
theorem unofficial_of_documented {i : Instr} {doc : State → Host.Outcome State Fault Refusal} {s : State}
    (hmode : s.cfg.unofficial = .documented) : unofficial i doc s = doc s := by
  unfold unofficial
  rw [hmode]

/-- An instruction that reads its operand and applies `f` changes the registers by `f` of the operand byte, and nothing else. -/
theorem exec_readOperand {i : Instr} {x : Src} {s : State} (f : Byte → Cpu → Cpu)
    (hview : execView i s = onSrc (fun y => readOperand f y s) i.form) (hform : i.form = .src x) :
    ∃ t, exec i s = .next t ∧ Untouched s t ∧ t.cpu = f (readSrc x s).1 s.cpu := by
  have hexec : exec i s = .next (readOperand f x s) := by
    rw [exec_eq_view, hview, hform]
    rfl
  exact ⟨_, hexec, readOperand_untouched f x s, readOperand_cpu f x s⟩

/-- An instruction that stores `v` of the registers stores it at the effective address and leaves the registers alone. -/
theorem exec_storeOperand {i : Instr} {m : MemOperand} {s : State} (v : Cpu → Byte)
    (hview : execView i s = onMem (fun k => storeOperand v k s) i.form) (hform : i.form = .src (.mem m)) :
    ∃ t, exec i s = .next t ∧ t.cpu = s.cpu ∧ Stored (s.target m) (v s.cpu) s t := by
  have hexec : exec i s = .next (storeOperand v m s) := by
    rw [exec_eq_view, hview, hform]
    rfl
  exact ⟨_, hexec, storeOperand_cpu v m s, storeOperand_stored v m s⟩

/-- An instruction of the implied format that applies `f` changes the registers by `f`, and nothing else (R133). -/
theorem exec_implied {i : Instr} {s : State} (f : Cpu → Cpu) (hview : execView i s = .next (implied f s)) :
    ∃ t, exec i s = .next t ∧ Untouched s t ∧ t.cpu = f s.cpu :=
  ⟨_, (exec_eq_view i s).trans hview, implied_untouched f s, implied_cpu f s⟩

end Sys2Proof.Machine

namespace Sys2Proof

/-- Settles O16: each load is the read of its operand with the register's load function. -/
theorem loads : Obligations.Loads := by
  unfold Obligations.Loads
  intro i x s hform
  refine ⟨fun hm => ?_, fun hm => ?_, fun hm => ?_⟩
  · exact Machine.exec_readOperand Machine.Cpu.loadA (by rw [Machine.execView, hm]) hform
  · exact Machine.exec_readOperand Machine.Cpu.loadX (by rw [Machine.execView, hm]) hform
  · exact Machine.exec_readOperand Machine.Cpu.loadY (by rw [Machine.execView, hm]) hform

/-- Settles O17: each store is the write of its byte at the target; SAX is one when the unofficial opcodes are documented. -/
theorem stores : Obligations.Stores := by
  unfold Obligations.Stores
  intro i m s hform
  refine ⟨fun hm => ?_, fun hm => ?_, fun hm => ?_, fun hm hmode => ?_⟩
  · exact Machine.exec_storeOperand Machine.Cpu.a (by rw [Machine.execView, hm]) hform
  · exact Machine.exec_storeOperand Machine.Cpu.x (by rw [Machine.execView, hm]) hform
  · exact Machine.exec_storeOperand Machine.Cpu.y (by rw [Machine.execView, hm]) hform
  · exact Machine.exec_storeOperand (fun c => c.a &&& c.x)
      (by rw [Machine.execView, hm]; exact Machine.unofficial_of_documented hmode) hform

/-- Settles O18: each transfer loads its destination with its source register; TXS copies X to S without the flags. -/
theorem transfers : Obligations.Transfers := by
  unfold Obligations.Transfers
  intro s
  refine ⟨?tax, ?tay, ?txa, ?tya, ?tsx, ?txs, rfl, rfl, rfl, rfl, rfl, rfl⟩
  case tax => exact Machine.exec_implied (fun c => c.loadX c.a) rfl
  case tay => exact Machine.exec_implied (fun c => c.loadY c.a) rfl
  case txa => exact Machine.exec_implied (fun c => c.loadA c.x) rfl
  case tya => exact Machine.exec_implied (fun c => c.loadA c.y) rfl
  case tsx => exact Machine.exec_implied (fun c => c.loadX c.s) rfl
  case txs => exact Machine.exec_implied (fun c => { c with s := c.x }) rfl

end Sys2Proof
end

section
/-! The stack (spec/41_stack.md). -/

namespace Sys2Proof.Machine

/-- `Cpu.pByte` appends bits 5 and 4, here both set, one at a time (spec/00_scope.md R17). -/
theorem append_bits54 (nv : BitVec 2) : nv ++ (1 : BitVec 1) ++ BitVec.ofBool true = nv ++ (0b11 : BitVec 2) := by
  revert nv
  decide

theorem Cpu.pByte_true (c : Cpu) : c.pByte true =
    BitVec.ofBool c.n ++ BitVec.ofBool c.v ++ (0b11 : BitVec 2) ++ BitVec.ofBool c.d ++ BitVec.ofBool c.i ++
      BitVec.ofBool c.z ++ BitVec.ofBool c.c := by
  unfold Cpu.pByte
  rw [append_bits54]

/-- An instruction that reads past itself and pushes a byte of the registers puts that byte at 0x0100 + S, lowers S and changes
nothing else (R16). -/
theorem exec_push {i : Instr} {s : State} (v : Cpu → Byte)
    (hview : execView i s = .next (push (v (dummyRead s.cpu.pc s).cpu) (dummyRead s.cpu.pc s))) :
    ∃ t, exec i s = .next t ∧ t.cpu = { s.cpu with s := s.cpu.s - 1 } ∧ StackFrame 1 s t ∧
      t.memoryByte (word 0x01 s.cpu.s) = v s.cpu := by
  have hcpu := dummyRead_cpu s.cpu.pc s
  refine ⟨_, (exec_eq_view i s).trans hview, ?cpu, ?frame, ?byte⟩
  case cpu => rw [push_cpu, hcpu]
  case frame =>
    exact StackFrame.push_more _ (memRead_readOnly s.cpu.pc s).stackFrame (by decide)
      (by rw [hcpu, BitVec.sub_zero])
  case byte => rw [push_stack_read, hcpu, if_pos rfl]

/-- The state in which a pulling instruction pulls: its two dummy reads are done (R147). -/
def beforePull (s : State) : State := dummyStack (dummyRead s.cpu.pc s)

theorem beforePull_cpu (s : State) : (beforePull s).cpu = s.cpu := (dummyStack_cpu _).trans (dummyRead_cpu _ s)

theorem beforePull_untouched (s : State) : Untouched s (beforePull s) :=
  (dummyRead_untouched _ s).trans (dummyStack_untouched _)

/-- An instruction that pulls a byte and applies `f` of it raises S, changes the registers by `f` of the byte at 0x0100 + S, and
changes nothing else (R16). -/
theorem exec_pull {i : Instr} {s : State} (f : Byte → Cpu → Cpu)
    (hview : execView i s = .next ((pull (beforePull s)).2.mapCpu (f (pull (beforePull s)).1))) :
    ∃ t, exec i s = .next t ∧ Untouched s t ∧
      t.cpu = f (s.memoryByte (word 0x01 (s.cpu.s + 1))) { s.cpu with s := s.cpu.s + 1 } := by
  have hbefore := beforePull_untouched s
  refine ⟨_, (exec_eq_view i s).trans hview, ?untouched, ?cpu⟩
  case untouched => exact (untouched_stable s).mapCpu _ (hbefore.trans (pull_untouched _))
  case cpu => rw [State.mapCpu_cpu, pull_cpu, pull_stack_read hbefore, beforePull_cpu]

end Sys2Proof.Machine

namespace Sys2Proof

/-- Settles O19: PHA pushes A, PHP the flags with bits 5 and 4 set. -/
theorem pushes : Obligations.Pushes := by
  unfold Obligations.Pushes
  intro s
  constructor
  · exact Machine.exec_push Machine.Cpu.a rfl
  · rw [← Machine.Cpu.pByte_true]
    exact Machine.exec_push (Machine.Cpu.pByte true) rfl

/-- Settles O20: PLA loads A with the byte pulled, PLP loads the flags from it. -/
theorem pulls : Obligations.Pulls := by
  unfold Obligations.Pulls
  intro s
  constructor
  · exact Machine.exec_pull Machine.Cpu.loadA rfl
  · exact Machine.exec_pull Machine.Cpu.setP rfl

end Sys2Proof
end

section
/-! Arithmetic, logic, compare and bit test (spec/42_arithmetic_logic.md). -/

namespace Sys2Proof.Machine

/-- The compare over the naturals and the integers (R205 to R207). -/
theorem Cpu.compare_eq (r m : Byte) (c : Cpu) : c.compare r m = { c with
    c := decide (m.toNat ≤ r.toNat)
    z := decide (r = m)
    n := (BitVec.ofInt 8 ((r.toNat : Int) - m.toNat)).getLsbD 7 } := by
  have hdiff : BitVec.ofInt 8 ((r.toNat : Int) - m.toNat) = r - m := by
    apply BitVec.eq_of_toNat_eq
    rw [BitVec.toNat_ofInt, BitVec.toNat_sub]
    omega
  rw [hdiff]
  rfl

/-- `exec_readOperand` with the registers as an equation about `f` writes them. -/
theorem exec_readOperand_of_eq {i : Instr} {x : Src} {s : State} {c : Cpu} (f : Byte → Cpu → Cpu)
    (hview : execView i s = onSrc (fun y => readOperand f y s) i.form) (hform : i.form = .src x)
    (hcpu : f (readSrc x s).1 s.cpu = c) : ∃ t, exec i s = .next t ∧ Untouched s t ∧ t.cpu = c :=
  hcpu ▸ exec_readOperand f hview hform

end Sys2Proof.Machine

namespace Sys2Proof

/-- Settles O21: the sum and the difference over the integers are those of `Cpu.adc_eq` and `Cpu.sbc_eq`; 0xEB runs SBC when the
unofficial opcodes are documented (spec/46_unofficial.md R293). -/
theorem addSubtract : Obligations.AddSubtract := by
  unfold Obligations.AddSubtract
  intro i x s hform
  refine ⟨fun hm => ?adc, fun hm => ?sbc⟩
  case adc =>
    exact Machine.exec_readOperand_of_eq Machine.Cpu.adc (by rw [Machine.execView, hm]) hform (Machine.Cpu.adc_eq _ _)
  case sbc =>
    have hview : Machine.execView i s =
        Machine.onSrc (fun y => Machine.readOperand Machine.Cpu.sbc y s) i.form := by
      rcases hm with hm | ⟨hm, hmode⟩
      · rw [Machine.execView, hm]
      · rw [Machine.execView, hm]
        exact Machine.unofficial_of_documented hmode
    exact Machine.exec_readOperand_of_eq Machine.Cpu.sbc hview hform (Machine.Cpu.sbc_eq _ _)

/-- Settles O22: each is the read of its operand with its own function of A. -/
theorem logic : Obligations.Logic := by
  unfold Obligations.Logic
  intro i x s hform
  refine ⟨fun hm => ?and, fun hm => ?ora, fun hm => ?eor⟩
  case and => exact Machine.exec_readOperand Machine.Cpu.and (by rw [Machine.execView, hm]) hform
  case ora => exact Machine.exec_readOperand Machine.Cpu.ora (by rw [Machine.execView, hm]) hform
  case eor => exact Machine.exec_readOperand Machine.Cpu.eor (by rw [Machine.execView, hm]) hform

/-- Settles O23: each is the compare of its register, whose difference `Cpu.compare_eq` reads over the integers. -/
theorem compares : Obligations.Compares := by
  unfold Obligations.Compares
  intro i x s hform
  refine ⟨fun hm => ?cmp, fun hm => ?cpx, fun hm => ?cpy⟩
  case cmp =>
    exact Machine.exec_readOperand_of_eq (fun m c => c.compare c.a m) (by rw [Machine.execView, hm]) hform
      (Machine.Cpu.compare_eq _ _ _)
  case cpx =>
    exact Machine.exec_readOperand_of_eq (fun m c => c.compare c.x m) (by rw [Machine.execView, hm]) hform
      (Machine.Cpu.compare_eq _ _ _)
  case cpy =>
    exact Machine.exec_readOperand_of_eq (fun m c => c.compare c.y m) (by rw [Machine.execView, hm]) hform
      (Machine.Cpu.compare_eq _ _ _)

/-- Settles O24: BIT is the read of its operand with `Cpu.bit`, which leaves A alone. -/
theorem bitTest : Obligations.BitTest := by
  unfold Obligations.BitTest
  intro i x s hm hform
  exact Machine.exec_readOperand Machine.Cpu.bit (by rw [Machine.execView, hm]) hform

end Sys2Proof
end

section
/-! Increments, decrements, shifts and rotates (spec/43_incdec_shift.md). -/

namespace Sys2Proof.Machine

/-! The shifts over the naturals: the new byte, and the bit shifted out in C (R226 to R229). -/

theorem Cpu.asl_eq (old : Byte) (c : Cpu) : c.asl old =
    (BitVec.ofNat 8 (2 * old.toNat),
      ({ c with c := decide (128 ≤ old.toNat) } : Cpu).setNZ (BitVec.ofNat 8 (2 * old.toNat))) := by
  unfold Cpu.asl
  rw [aslByte_eq, byte_getLsbD_seven]

theorem Cpu.lsr_eq (old : Byte) (c : Cpu) : c.lsr old =
    (BitVec.ofNat 8 (old.toNat / 2),
      ({ c with c := decide (old.toNat % 2 = 1) } : Cpu).setNZ (BitVec.ofNat 8 (old.toNat / 2))) := by
  unfold Cpu.lsr
  rw [lsrByte_eq, byte_getLsbD_zero]

theorem Cpu.rol_eq (old : Byte) (c : Cpu) : c.rol old =
    (BitVec.ofNat 8 (2 * old.toNat + c.c.toNat),
      ({ c with c := decide (128 ≤ old.toNat) } : Cpu).setNZ (BitVec.ofNat 8 (2 * old.toNat + c.c.toNat))) := by
  unfold Cpu.rol
  rw [rolByte_eq, byte_getLsbD_seven]

theorem Cpu.ror_eq (old : Byte) (c : Cpu) : c.ror old =
    (BitVec.ofNat 8 (old.toNat / 2 + 128 * c.c.toNat),
      ({ c with c := decide (old.toNat % 2 = 1) } : Cpu).setNZ (BitVec.ofNat 8 (old.toNat / 2 + 128 * c.c.toNat))) := by
  unfold Cpu.ror
  rw [rorByte_eq, byte_getLsbD_zero]

/-- An instruction that modifies its memory operand by `f` reads the old byte without touching anything, writes it back and then
writes the new one, both at the effective address (R132). -/
theorem exec_modifyOperand {i : Instr} {m : MemOperand} {s : State} {new : Byte} {c : Cpu} (f : Byte → Cpu → Byte × Cpu)
    (hview : execView i s = .next (modifyOperand f m s)) (hf : f (oldByte m s) s.cpu = (new, c)) :
    ∃ t, exec i s = .next t ∧ Stored (s.target m) new s t ∧ t.cpu = c ∧ ∃ u, Untouched s u ∧ u.cpu = s.cpu ∧
      t = memWrite (s.target m) new { memWrite (s.target m) (oldByte m s) u with cpu := t.cpu } := by
  obtain ⟨u, hread, hcpu, heq⟩ := modifyOperand_eq f m s
  have hstored := modifyOperand_stored f m s
  have hlast := modifyOperand_cpu f m s
  rw [hf] at heq hstored hlast
  refine ⟨_, (exec_eq_view i s).trans hview, hstored, hlast, u, hread.toUntouched, hcpu, ?_⟩
  rw [hlast]
  exact heq

/-- An instruction of the accumulator format that modifies A by `f` touches nothing else but the flags `f` sets (R133). -/
theorem exec_modifyAcc {i : Instr} {s : State} {new : Byte} {c : Cpu} (f : Byte → Cpu → Byte × Cpu)
    (hview : execView i s = .next (modifyAcc f s)) (hf : f s.cpu.a s.cpu = (new, c)) :
    ∃ t, exec i s = .next t ∧ Untouched s t ∧ t.cpu = { c with a := new } := by
  refine ⟨_, (exec_eq_view i s).trans hview, modifyAcc_untouched f s, ?_⟩
  rw [modifyAcc_cpu, hf]

/-- After the opcode fetch, an operation of the implied format is the one cycle of its dummy read (R133). -/
theorem implied_spent (f : Cpu → Cpu) {s : State} (h : Quiet s) : Spent 1 s (implied f s) :=
  (dummyRead_spent s.cpu.pc h).cpu _

/-- `exec_implied` with the cycle that runs here; with the opcode fetch the instruction takes two (R144). -/
theorem exec_implied_two_cycles {i : Instr} {s : State} (f : Cpu → Cpu) (hview : execView i s = .next (implied f s))
    (hform : i.form = .imp) (hown : i.mnem.ownSequence = false) :
    ∃ t, exec i s = .next t ∧ Untouched s t ∧ t.cpu = f s.cpu ∧ (Quiet s → t.bus.cyc = s.bus.cyc + 1) ∧
      i.cycles s = 2 := by
  refine ⟨_, (exec_eq_view i s).trans hview, implied_untouched f s, implied_cpu f s, fun h => (implied_spent f h).cyc, ?_⟩
  rw [Instr.cycles_of_form hown, hform]

end Sys2Proof.Machine

namespace Sys2Proof

/-- Settles O26: each is the modification of its memory operand; the equations of the shifts give the new byte and C. -/
theorem modifyMemory : Obligations.ModifyMemory := by
  unfold Obligations.ModifyMemory
  intro i m s hform
  refine ⟨fun hm => ?inc, fun hm => ?dec, fun hm => ?asl, fun hm => ?lsr, fun hm => ?rol, fun hm => ?ror⟩
  case inc => exact Machine.exec_modifyOperand Machine.Cpu.inc (by rw [Machine.execView, hm, hform]; rfl) rfl
  case dec => exact Machine.exec_modifyOperand Machine.Cpu.dec (by rw [Machine.execView, hm, hform]; rfl) rfl
  case asl =>
    exact Machine.exec_modifyOperand Machine.Cpu.asl (by rw [Machine.execView, hm, hform]; rfl) (Machine.Cpu.asl_eq _ _)
  case lsr =>
    exact Machine.exec_modifyOperand Machine.Cpu.lsr (by rw [Machine.execView, hm, hform]; rfl) (Machine.Cpu.lsr_eq _ _)
  case rol =>
    exact Machine.exec_modifyOperand Machine.Cpu.rol (by rw [Machine.execView, hm, hform]; rfl) (Machine.Cpu.rol_eq _ _)
  case ror =>
    exact Machine.exec_modifyOperand Machine.Cpu.ror (by rw [Machine.execView, hm, hform]; rfl) (Machine.Cpu.ror_eq _ _)

/-- Settles O27: each is the same shift as its memory forms, on A. -/
theorem modifyAccumulator : Obligations.ModifyAccumulator := by
  unfold Obligations.ModifyAccumulator
  intro s
  refine ⟨?asl, ?lsr, ?rol, ?ror⟩
  case asl => exact Machine.exec_modifyAcc Machine.Cpu.asl rfl (Machine.Cpu.asl_eq _ _)
  case lsr => exact Machine.exec_modifyAcc Machine.Cpu.lsr rfl (Machine.Cpu.lsr_eq _ _)
  case rol => exact Machine.exec_modifyAcc Machine.Cpu.rol rfl (Machine.Cpu.rol_eq _ _)
  case ror => exact Machine.exec_modifyAcc Machine.Cpu.ror rfl (Machine.Cpu.ror_eq _ _)

/-- Settles O25: each is an operation of the implied format that loads its register with the stepped value. -/
theorem registerSteps : Obligations.RegisterSteps := by
  unfold Obligations.RegisterSteps
  intro s
  refine ⟨?inx, ?iny, ?dex, ?dey, rfl, rfl, rfl, rfl⟩
  case inx => exact Machine.exec_implied_two_cycles (fun c => c.loadX (c.x + 1)) rfl rfl rfl
  case iny => exact Machine.exec_implied_two_cycles (fun c => c.loadY (c.y + 1)) rfl rfl rfl
  case dex => exact Machine.exec_implied_two_cycles (fun c => c.loadX (c.x - 1)) rfl rfl rfl
  case dey => exact Machine.exec_implied_two_cycles (fun c => c.loadY (c.y - 1)) rfl rfl rfl

end Sys2Proof
end

section
/-! Jumps, calls and branches (spec/44_control_transfer.md). -/

namespace Sys2Proof.Machine

/-! The two bytes of an address on the stack (spec/00_scope.md R16): JSR pushes them, RTS pulls them. -/

/-- The two pushes of PC, high byte first (R241). -/
def pushPc (s : State) : State :=
  let s := push (hi8 s.cpu.pc) s
  push (lo8 s.cpu.pc) s

theorem opJsr_eq (l : Byte) (s : State) :
    opJsr l s = .next ((memRead (pushPc (dummyStack s)).cpu.pc (pushPc (dummyStack s))).2.setPc
      (word (memRead (pushPc (dummyStack s)).cpu.pc (pushPc (dummyStack s))).1 l)) := rfl

theorem pushPc_cpu (s : State) : (pushPc s).cpu = { s.cpu with s := s.cpu.s - 2 } := by
  have htwo : s.cpu.s - 1 - 1 = s.cpu.s - 2 := by bv_omega
  simp only [pushPc, push_cpu, htwo]

theorem pushPc_stackFrame {s u : State} (h : ReadOnly s u) (hs : u.cpu.s = s.cpu.s) : StackFrame 2 s (pushPc u) := by
  have hhigh : StackFrame 1 s (push (hi8 u.cpu.pc) u) :=
    StackFrame.push_more _ h.stackFrame (by decide) (by rw [hs, BitVec.sub_zero])
  exact StackFrame.push_more _ hhigh (by decide) (by rw [push_cpu, hs]; rfl)

theorem pushPc_high (s : State) : (pushPc s).memoryByte (word 0x01 s.cpu.s) = hi8 s.cpu.pc := by
  have hne : s.cpu.s ≠ s.cpu.s - 1 := by bv_omega
  rw [pushPc, push_stack_read, push_cpu, if_neg hne, push_stack_read, if_pos rfl]

theorem pushPc_low (s : State) : (pushPc s).memoryByte (word 0x01 (s.cpu.s - 1)) = lo8 s.cpu.pc := by
  rw [pushPc, push_stack_read, push_cpu, if_pos rfl]

/-- Two pulls as a word, low byte first (R242). -/
def pullWord (s : State) : Addr × State :=
  let lo := pull s
  let hi := pull lo.2
  (word hi.1 lo.1, hi.2)

theorem opRts_eq (s : State) :
    opRts s = .next ((dummyRead (pullWord (beforePull s)).1
      ((pullWord (beforePull s)).2.setPc (pullWord (beforePull s)).1)).setPc ((pullWord (beforePull s)).1 + 1)) := rfl

theorem pullWord_cpu (s : State) : (pullWord s).2.cpu = { s.cpu with s := s.cpu.s + 2 } := by
  have htwo : s.cpu.s + 1 + 1 = s.cpu.s + 2 := by bv_omega
  simp only [pullWord, pull_cpu, htwo]

theorem pullWord_untouched (s : State) : Untouched s (pullWord s).2 := (pull_untouched s).trans (pull_untouched _)

theorem pullWord_value {s u : State} (h : Untouched s u) :
    (pullWord u).1 = s.memoryWord (word 0x01 (u.cpu.s + 1)) (word 0x01 (u.cpu.s + 2)) := by
  have htwo : u.cpu.s + 1 + 1 = u.cpu.s + 2 := by bv_omega
  rw [pullWord, pull_stack_read h, pull_stack_read (h.trans (pull_untouched u)), pull_cpu, htwo]
  rfl

/-! What each instruction does. -/

/-- Pushes do not change what is plain memory. -/
theorem StackFrame.placeable {n : Nat} {s t : State} (h : StackFrame n s t) (a : Addr) :
    Machine.placeable t a = Machine.placeable s a := h.rest.placeable a

/-- Each branch mnemonic is the relative operation under its condition (R244 to R251). -/
theorem execView_branch {i : Instr} {o : Byte} {s : State} {cond : Bool} (hform : i.form = .rel o)
    (hcond : i.mnem.condition s.cpu = some cond) : execView i s = .next (branch cond o s) := by
  unfold execView
  rw [hform]
  cases hm : i.mnem <;> rw [hm] at hcond
  case bcc | bcs | beq | bne | bmi | bpl | bvc | bvs =>
    cases hcond
    rfl
  all_goals cases hcond

end Sys2Proof.Machine

namespace Sys2Proof
open Machine

/-- Settles O28: the pointer is read as a word, and a read touches nothing. -/
theorem jumps : Obligations.Jumps := by
  unfold Obligations.Jumps
  intro l h s
  constructor
  · exact ⟨_, rfl, (untouched_stable s).setPc _ (Untouched.refl s), rfl⟩
  · refine ⟨_, rfl, ?untouched, ⟨(readWord (word h l) (word h (l + 1)) s).1, ?cpu⟩,
      fun hlo hhi => ?target⟩
    case untouched => exact (untouched_stable s).setPc _ (readWord_untouched _ _ s)
    case cpu => rw [State.setPc_cpu, readWord_cpu]
    case target => exact readWord_value hlo hhi

/-- Settles O29: JSR reads its third byte after the pushes, from the memory they left. -/
theorem call : Obligations.Call := by
  unfold Obligations.Call
  intro l h s
  have hdummy : (dummyStack s).cpu = s.cpu := dummyStack_cpu s
  have hcpu := pushPc_cpu (dummyStack s)
  have hframe : StackFrame 2 s (pushPc (dummyStack s)) :=
    pushPc_stackFrame (memRead_readOnly _ s) (by rw [hdummy])
  have hhigh := pushPc_high (dummyStack s)
  have hlow := pushPc_low (dummyStack s)
  have hexec := (exec_eq_view (.jsrAbs l h) s).trans (opJsr_eq l s)
  generalize pushPc (dummyStack s) = u at hcpu hframe hhigh hlow hexec
  rw [hdummy] at hcpu hhigh hlow
  have hread : ReadOnly u ((memRead u.cpu.pc u).2.setPc (word (memRead u.cpu.pc u).1 l)) :=
    (readOnly_stable u).setPc _ (memRead_readOnly _ u)
  refine ⟨_, hexec, hframe.then_readOnly hread, ?high, ?low, ⟨(memRead u.cpu.pc u).1, ?cpu⟩, fun hmem => ?target⟩
  case high => rw [hread.memoryByte, hhigh]
  case low => rw [hread.memoryByte, hlow]
  case cpu => rw [State.setPc_cpu, memRead_cpu, hcpu]
  case target =>
    have hpc : u.cpu.pc = s.cpu.pc := by rw [hcpu]
    rw [hread.memoryByte, State.setPc_cpu, hi8_word, hpc, memRead_value (by rw [hframe.placeable, hmem])]

/-- Settles O30: two pulls, then the jump past the word they give. -/
theorem return_ : Obligations.Return := by
  unfold Obligations.Return
  intro s
  have hbefore := beforePull_untouched s
  have hpull := hbefore.trans (pullWord_untouched _)
  refine ⟨_, (exec_eq_view .rts s).trans (opRts_eq s), ?untouched, ?cpu⟩
  case untouched =>
    have hstable := untouched_stable s
    exact hstable.setPc _ (hstable.dummyRead _ (hstable.setPc _ hpull))
  case cpu =>
    rw [State.setPc_cpu, dummyRead_cpu, State.setPc_cpu, pullWord_cpu, pullWord_value hbefore, beforePull_cpu]

/-- Settles O31: every branch is the relative operation, whose target over the integers is `branchTarget_eq`. -/
theorem branches : Obligations.Branches := by
  unfold Obligations.Branches
  intro i o s cond hform hcond
  dsimp only
  rw [← branchTarget_eq]
  refine ⟨_, (exec_eq_view i s).trans (execView_branch hform hcond), branch_untouched cond o s,
    ?cpu, fun hquiet => ?cycles⟩
  case cpu =>
    rw [branch_cpu]
    cases cond <;> rfl
  case cycles => exact (branch_took cond o (Spent.refl hquiet)).cyc.trans (by rw [Nat.zero_add])

/-- Settles O37: RTS pulls the two bytes that JSR pushed, whose word is the address of JSR's last byte. -/
theorem callThenReturn : Obligations.CallThenReturn := by
  unfold Obligations.CallThenReturn
  intro l h s t u hexec hs hhigh hlow
  obtain ⟨t', hexec', -, hhigh', hlow', ⟨high, hcpu⟩, -⟩ := call l h s
  obtain rfl : t' = t := Host.Outcome.next.inj (hexec'.symm.trans hexec)
  obtain ⟨v, hrts, -, hv⟩ := return_ u
  have hsp : u.cpu.s = s.cpu.s - 2 := by rw [hs, hcpu]
  have hlowAddr : u.cpu.s + 1 = s.cpu.s - 1 := by rw [hsp]; bv_omega
  have hhighAddr : u.cpu.s + 2 = s.cpu.s := by rw [hsp]; bv_omega
  have hword : u.memoryWord (word 0x01 (s.cpu.s - 1)) (word 0x01 s.cpu.s) = s.cpu.pc := by
    rw [State.memoryWord, hhigh, hlow, hhigh', hlow', word_hi8_lo8]
  refine ⟨v, hrts, ?_⟩
  rw [hv, hlowAddr, hhighAddr, hword]

end Sys2Proof
end

section
/-! Flag instructions, NOP, BRK and RTI (spec/45_flags_system.md). -/

namespace Sys2Proof.Machine

theorem fetch_readOnly (s : State) : ReadOnly s (fetch s).2 := (readOnly_stable s).fetch (ReadOnly.refl s)

end Sys2Proof.Machine

namespace Sys2Proof
open Machine

/-- Settles O33: BRK takes the exception after the fetch of its padding byte; the flag byte pushed has bits 5 and 4 set. -/
theorem softwareInterrupt : Obligations.SoftwareInterrupt := by
  unfold Obligations.SoftwareInterrupt
  intro s
  have hcpu := fetch_cpu s
  have hs : (fetch s).2.cpu.s = s.cpu.s := by rw [hcpu]
  have heffect := takeException_effect 0xFFFE true (fetch_readOnly s) hs (by decide) (by decide)
  rw [hcpu, Cpu.pByte_true] at heffect
  exact ⟨_, exec_eq_view .brk s, heffect⟩

/-- Settles O35: RTI returns from the exception after its two dummy reads, which leave registers and memory as they are. -/
theorem returnFromInterrupt : Obligations.ReturnFromInterrupt := by
  unfold Obligations.ReturnFromInterrupt
  intro s
  have hbefore := beforePull_untouched s
  exact ⟨returnFromException (beforePull s), exec_eq_view .rti s,
    hbefore.trans (returnFromException_untouched _), returnFromException_cpu hbefore (beforePull_cpu s)⟩

/-- Settles O32: each is an operation of the implied format that writes its flag; NOP is the one that writes nothing. -/
theorem flagInstructions : Obligations.FlagInstructions := by
  unfold Obligations.FlagInstructions
  intro s
  refine ⟨?clc, ?sec, ?cli, ?sei, ?cld, ?sed, ?clv, ?nop, rfl, rfl, rfl, rfl, rfl, rfl, rfl, rfl⟩
  case clc => exact exec_implied (fun c => { c with c := false }) rfl
  case sec => exact exec_implied (fun c => { c with c := true }) rfl
  case cli => exact exec_implied (fun c => { c with i := false }) rfl
  case sei => exact exec_implied (fun c => { c with i := true }) rfl
  case cld => exact exec_implied (fun c => { c with d := false }) rfl
  case sed => exact exec_implied (fun c => { c with d := true }) rfl
  case clv => exact exec_implied (fun c => { c with v := false }) rfl
  case nop => exact exec_implied id rfl

end Sys2Proof
end

section
/-! Unofficial opcodes (spec/46_unofficial.md). -/

namespace Sys2Proof.Machine

/-! The combined operations over the naturals and the integers: the new byte of a read-modify-write, then the registers. -/

/-- SLO (R281): ORA with the shifted byte; C is the bit shifted out. -/
theorem Cpu.slo_eq (old : Byte) (c : Cpu) : c.slo old =
    (BitVec.ofNat 8 (2 * old.toNat),
      ({ c with c := decide (128 ≤ old.toNat) } : Cpu).ora (BitVec.ofNat 8 (2 * old.toNat))) := by
  unfold Cpu.slo
  rw [aslByte_eq, byte_getLsbD_seven]

/-- RLA (R282): AND with the rotated byte; C is the bit shifted out. -/
theorem Cpu.rla_eq (old : Byte) (c : Cpu) : c.rla old =
    (BitVec.ofNat 8 (2 * old.toNat + c.c.toNat),
      ({ c with c := decide (128 ≤ old.toNat) } : Cpu).and (BitVec.ofNat 8 (2 * old.toNat + c.c.toNat))) := by
  unfold Cpu.rla
  rw [rolByte_eq, byte_getLsbD_seven]

/-- SRE (R283): EOR with the shifted byte; C is the bit shifted out. -/
theorem Cpu.sre_eq (old : Byte) (c : Cpu) : c.sre old =
    (BitVec.ofNat 8 (old.toNat / 2),
      ({ c with c := decide (old.toNat % 2 = 1) } : Cpu).eor (BitVec.ofNat 8 (old.toNat / 2))) := by
  unfold Cpu.sre
  rw [lsrByte_eq, byte_getLsbD_zero]

theorem decide_odd_toNat (n : Nat) : (decide (n % 2 = 1)).toNat = n % 2 := by
  rcases Nat.mod_two_eq_zero_or_one n with h | h <;> rw [h] <;> rfl

/-- RRA (R284): the carry that its addition takes in is the bit that its rotation shifts out. -/
theorem Cpu.rra_eq (old : Byte) (c : Cpu) : c.rra old =
    let new := BitVec.ofNat 8 (old.toNat / 2 + 128 * c.c.toNat)
    let sum := c.a.toNat + new.toNat + old.toNat % 2
    let signedSum := c.a.toInt + new.toInt + (old.toNat % 2 : Nat)
    (new,
      { c with
        a := BitVec.ofNat 8 sum
        c := decide (256 ≤ sum)
        v := decide (signedSum < -128 ∨ 127 < signedSum)
        z := BitVec.ofNat 8 sum == 0
        n := (BitVec.ofNat 8 sum).getLsbD 7 }) := by
  unfold Cpu.rra
  rw [rorByte_eq, byte_getLsbD_zero, Cpu.adc_eq]
  dsimp only
  rw [decide_odd_toNat]

/-- ISC (R288): SBC of the incremented byte, as a difference. -/
theorem Cpu.isc_eq (old : Byte) (c : Cpu) : c.isc old =
    let difference := (c.a.toNat : Int) - (old + 1).toNat - (1 - c.c.toNat)
    let signedDifference := c.a.toInt - (old + 1).toInt - (1 - c.c.toNat)
    (old + 1,
      { c with
        a := BitVec.ofInt 8 difference
        c := decide (0 ≤ difference)
        v := decide (signedDifference < -128 ∨ 127 < signedDifference)
        z := BitVec.ofInt 8 difference == 0
        n := (BitVec.ofInt 8 difference).getLsbD 7 }) := by
  unfold Cpu.isc
  rw [Cpu.sbc_eq]

/-- ALR (R290): the conjunction halved; C is the bit shifted out. -/
theorem Cpu.alr_eq (m : Byte) (c : Cpu) : c.alr m =
    ({ c with c := (c.a &&& m).getLsbD 0 } : Cpu).loadA (BitVec.ofNat 8 ((c.a &&& m).toNat / 2)) := by
  rw [← lsrByte_eq]
  rfl

/-- ARR (R291): the conjunction rotated; C and V come from bits 6 and 5 of the result. -/
theorem Cpu.arr_eq (m : Byte) (c : Cpu) : c.arr m =
    let turned := BitVec.ofNat 8 ((c.a &&& m).toNat / 2 + 128 * c.c.toNat)
    { c.loadA turned with c := turned.getLsbD 6, v := turned.getLsbD 6 != turned.getLsbD 5 } := by
  unfold Cpu.arr
  rw [rorByte_eq]

/-! The shapes of an unofficial instruction under the documented behaviour. -/

/-- A documented instruction that modifies its memory operand by `f` stores the new byte at the effective address, and `f` gives
the registers. -/
theorem exec_documented_modifyOperand {i : Instr} {m : MemOperand} {s : State} {new : Byte} {c : Cpu}
    (f : Byte → Cpu → Byte × Cpu) (hmode : s.cfg.unofficial = .documented)
    (hview : execView i s = unofficial i (fun u => onMem (fun k => modifyOperand f k u) i.form) s)
    (hform : i.form = .src (.mem m)) (hf : f (oldByte m s) s.cpu = (new, c)) :
    ∃ t, exec i s = .next t ∧ Stored (s.target m) new s t ∧ t.cpu = c := by
  have hmodify : execView i s = .next (modifyOperand f m s) := by
    rw [hview, unofficial_of_documented hmode, hform]
    rfl
  obtain ⟨t, hexec, hstored, hcpu, -⟩ := exec_modifyOperand f hmodify hf
  exact ⟨t, hexec, hstored, hcpu⟩

/-- A documented instruction that reads its operand and applies `f`, which may depend on the configuration, changes the registers by
`f` of the operand byte, and nothing else. -/
theorem exec_documented_readOperand {i : Instr} {x : Src} {s : State} {c : Cpu} (f : Params → Byte → Cpu → Cpu)
    (hmode : s.cfg.unofficial = .documented)
    (hview : execView i s = unofficial i (fun u => onSrc (fun y => readOperand (f u.cfg) y u) i.form) s)
    (hform : i.form = .src x) (hcpu : f s.cfg (readSrc x s).1 s.cpu = c) :
    ∃ t, exec i s = .next t ∧ Untouched s t ∧ t.cpu = c :=
  exec_readOperand_of_eq (f s.cfg) (hview.trans (unofficial_of_documented hmode)) hform hcpu

/-- The target of an address-high-byte store with the crossing written out (R296 to R299). -/
theorem highTarget_eq (base : Addr) (i v : Byte) : highTarget base i v =
    if 256 ≤ (lo8 base).toNat + i.toNat then word v (lo8 (base + i.setWidth 16)) else base + i.setWidth 16 := by
  unfold highTarget crosses indexedAddr
  simp only [decide_eq_true_eq]

/-- A documented address-high-byte instruction stores `reg` AND the base's high byte plus one, after reads that lead to `u`. -/
theorem exec_documented_storeHigh {i : Instr} {s u : State} {doc : State → Host.Outcome State Fault Refusal}
    {reg index : Byte} {base : Addr} {c : Cpu} (hmode : s.cfg.unofficial = .documented)
    (hview : execView i s = unofficial i doc s) (hdoc : doc s = .next (storeHigh reg base index u))
    (hread : ReadOnly s u) (hcpu : u.cpu = c) :
    ∃ t, exec i s = .next t ∧ t.cpu = c ∧
      Stored (if 256 ≤ (lo8 base).toNat + index.toNat
        then word (reg &&& (hi8 base + 1)) (lo8 (base + index.setWidth 16)) else base + index.setWidth 16)
        (reg &&& (hi8 base + 1)) s t := by
  have hexec : exec i s = .next (storeHigh reg base index u) := by
    rw [exec_eq_view, hview, unofficial_of_documented hmode, hdoc]
  rw [← highTarget_eq]
  exact ⟨_, hexec, (storeHigh_cpu _ _ _ _).trans hcpu, storeHigh_stored reg index base hread⟩

/-- A pointer in page zero is the word of the two bytes of memory there (R140, R141). -/
theorem zpPointer_value (z : Byte) (s : State) :
    (zpPointer z s).1 = s.memoryWord (word 0x00 z) (word 0x00 (z + 1)) :=
  readWord_value (placeable_zeroPage s z) (placeable_zeroPage s (z + 1))

/-! No operation. -/

theorem dummyRead_diag (a : Addr) (s : State) : (dummyRead a s).diag = s.diag := (diag_stable _).dummyRead a rfl

/-- Under the no-operation policy every unofficial instruction but JAM makes the reads of its form and logs (R312). -/
theorem execView_of_nop {i : Instr} {s : State} (hmode : s.cfg.unofficial = .nop) (hoff : i.mnem.official = false)
    (hjam : i.mnem ≠ .jam) : execView i s = nopPolicy i s := by
  have hpolicy : ∀ doc, unofficial i doc s = nopPolicy i s := fun doc => by
    unfold unofficial
    rw [hmode]
  unfold execView
  cases hm : i.mnem <;> rw [hm] at hoff
  case jam => exact absurd hm hjam
  case slo | rla | sre | rra | dcp | isc | sax | lax | las | anc | alr | arr | axs | xaa | lxa | sbcU | sha | shx | shy | tas
      | nopU =>
    exact hpolicy _
  all_goals cases hoff

end Sys2Proof.Machine

namespace Sys2Proof
open Machine

/-- Settles O39: each is the modification of its memory operand by the shift or step and the second operation, whose equations give
the byte and the registers. -/
theorem combinedModify : Obligations.CombinedModify := by
  unfold Obligations.CombinedModify
  intro i m s hform hmode
  refine ⟨fun hm => ?slo, fun hm => ?rla, fun hm => ?sre, fun hm => ?rra, fun hm => ?dcp, fun hm => ?isc⟩
  case slo => exact exec_documented_modifyOperand Cpu.slo hmode (by rw [execView, hm]) hform (Cpu.slo_eq _ _)
  case rla => exact exec_documented_modifyOperand Cpu.rla hmode (by rw [execView, hm]) hform (Cpu.rla_eq _ _)
  case sre => exact exec_documented_modifyOperand Cpu.sre hmode (by rw [execView, hm]) hform (Cpu.sre_eq _ _)
  case rra => exact exec_documented_modifyOperand Cpu.rra hmode (by rw [execView, hm]) hform (Cpu.rra_eq _ _)
  case dcp => exact exec_documented_modifyOperand Cpu.dcp hmode (by rw [execView, hm]) hform rfl
  case isc => exact exec_documented_modifyOperand Cpu.isc hmode (by rw [execView, hm]) hform (Cpu.isc_eq _ _)

/-- Settles O40: each is the read of its operand with its own function of the registers, for XAA and LXA the one of the
configuration's constant. -/
theorem combinedRead : Obligations.CombinedRead := by
  unfold Obligations.CombinedRead
  intro i x s hform hmode
  refine ⟨fun hm => ?lax, fun hm => ?anc, fun hm => ?alr, fun hm => ?arr, fun hm => ?axs, fun hm => ?xaa, fun hm => ?lxa,
    fun hm => ?las⟩
  case lax => exact exec_documented_readOperand (fun _ => Cpu.lax) hmode (by rw [execView, hm]) hform rfl
  case anc => exact exec_documented_readOperand (fun _ => Cpu.anc) hmode (by rw [execView, hm]) hform rfl
  case alr => exact exec_documented_readOperand (fun _ => Cpu.alr) hmode (by rw [execView, hm]) hform (Cpu.alr_eq _ _)
  case arr => exact exec_documented_readOperand (fun _ => Cpu.arr) hmode (by rw [execView, hm]) hform (Cpu.arr_eq _ _)
  case axs => exact exec_documented_readOperand (fun _ => Cpu.axs) hmode (by rw [execView, hm]) hform rfl
  case xaa => exact exec_documented_readOperand (fun p => Cpu.xaa p.magicXaa) hmode (by rw [execView, hm]) hform rfl
  case lxa => exact exec_documented_readOperand (fun p => Cpu.lxa p.magicLxa) hmode (by rw [execView, hm]) hform rfl
  case las => exact exec_documented_readOperand (fun _ => Cpu.las) hmode (by rw [execView, hm]) hform rfl

/-- Settles O41: each is one address-high-byte store; SHA indirect reads its pointer first, and TAS writes S first. -/
theorem storeHighByte : Obligations.StoreHighByte := by
  unfold Obligations.StoreHighByte
  intro i s hmode
  refine ⟨fun l h hm hform => ?shy, fun l h hm hform => ?shx, fun l h hm hform => ?sha, fun z hm hform => ?shaIndirect,
    fun l h hm hform => ?tas⟩
  case shy => exact exec_documented_storeHigh hmode (by rw [execView, hm, hform]) rfl (ReadOnly.refl s) rfl
  case shx => exact exec_documented_storeHigh hmode (by rw [execView, hm, hform]) rfl (ReadOnly.refl s) rfl
  case sha => exact exec_documented_storeHigh hmode (by rw [execView, hm, hform]) rfl (ReadOnly.refl s) rfl
  case shaIndirect =>
    rw [← zpPointer_value]
    exact exec_documented_storeHigh hmode (by rw [execView, hm, hform]) rfl (readWord_readOnly _ _ s) (zpPointer_cpu z s)
  case tas =>
    exact exec_documented_storeHigh hmode (by rw [execView, hm, hform]) rfl
      ((readOnly_stable s).setS (s.cpu.a &&& s.cpu.x) (ReadOnly.refl s)) rfl

/-- Settles O42: each only makes the reads of its form; what it logs and marks is no register, flag or memory. -/
theorem nopsAndJam : Obligations.NopsAndJam := by
  unfold Obligations.NopsAndJam
  intro i s
  have hstable := untouched_stable s
  refine ⟨fun hm hmode => ?documented, fun hm => ?jam, fun hmode hoff hjam => ?nop⟩
  case documented =>
    have hexec : exec i s = .next (nopAccesses i.form s) := by
      rw [exec_eq_view, execView, hm]
      exact unofficial_of_documented hmode
    exact ⟨_, hexec, nopAccesses_untouched i.form s, nopAccesses_cpu i.form s, nopAccesses_diag i.form s⟩
  case jam =>
    have hexec : exec i s = opJam i.opcode s := by
      rw [exec_eq_view, execView, hm]
    refine ⟨_, hexec, hstable.jam _ (hstable.log _ _ (dummyRead_untouched s.cpu.pc s)), dummyRead_cpu s.cpu.pc s, rfl, ?_⟩
    exact congrArg (· ++ [illegalOpcode i.opcode 1 s.cpu.pc]) (dummyRead_diag s.cpu.pc s)
  case nop =>
    refine ⟨_, (exec_eq_view i s).trans (execView_of_nop hmode hoff hjam),
      hstable.log _ _ (nopAccesses_untouched i.form s), nopAccesses_cpu i.form s, ?_⟩
    have hlength : instrLength i.opcode = (encode i).length := instrLength_opcode i
    rw [State.log_diag, nopAccesses_diag, illegalOpcode, hlength]

end Sys2Proof
end

section
/-! The poll, and the entry into an exception and the return from it (spec/60_exceptions.md R321 to R333). -/

namespace Sys2Proof.Machine

/-! The poll (R326, R327). -/

/-- A machine that is on and not hung does what the poll selects. -/
theorem step_eq_boundary {s : State} (hpower : s.power ≠ .off) (hhung : s.hung = false) :
    step s = checkHung (boundary s) := by
  rw [step, if_neg hpower, if_neg (by rw [hhung]; exact Bool.false_ne_true)]

theorem boundary_of_reset {s : State} (hreset : s.bus.resetPending = true) : boundary s = .next (resetSequence s) :=
  if_pos hreset

theorem boundary_of_nmi {s : State} (hreset : s.bus.resetPending = false) (hnmi : s.bus.nmiPending = true) :
    boundary s = .next (nmiEntry s) := by
  rw [boundary, hreset, hnmi]
  rfl

theorem boundary_of_irq {s : State} (hreset : s.bus.resetPending = false) (hnmi : s.bus.nmiPending = false)
    (hirq : irqTaken s = true) : boundary s = .next (irqEntry s) := by
  rw [boundary, hreset, hnmi, hirq]
  rfl

theorem irqTaken_eq_false_iff (s : State) : irqTaken s = false ↔ irqLine s = false ∨ s.cpu.i = true := by
  rw [irqTaken, Bool.and_eq_false_iff, Bool.not_eq_false']

/-! No step is refused (R126, R321). -/

/-- The fetch returns at least the bytes that the opcode it read calls for, whatever drives the bus. -/
theorem fetchInstr_length (s : State) :
    ∃ op tl, (fetchInstr s).1 = op :: tl ∧ instrLength op ≤ tl.length + 1 := by
  unfold fetchInstr
  dsimp only
  rcases instrLength_cases (fetch s).1 with hlen | hlen | hlen <;> simp only [hlen]
  · exact ⟨_, _, rfl, hlen.le⟩
  · exact ⟨_, _, rfl, hlen.le⟩
  · split <;> exact ⟨_, _, rfl, hlen.le⟩

theorem runInstruction_exists (s : State) : ∃ t, runInstruction s = .next t := by
  obtain ⟨op, tl, hbytes, hlen⟩ := fetchInstr_length s
  obtain ⟨i, r, hdecode⟩ := decode_of_length hlen
  obtain ⟨t, hexec⟩ := exec_exists i (fetchInstr s).2
  refine ⟨t, ?_⟩
  simp only [runInstruction, hbytes, hdecode, hexec]

theorem boundary_exists (s : State) : ∃ t, boundary s = .next t := by
  unfold boundary
  split
  · exact ⟨_, rfl⟩
  split
  · exact ⟨_, rfl⟩
  split
  · exact ⟨_, rfl⟩
  exact runInstruction_exists s

/-! The two interrupt entries (R328 to R331). -/

theorem append_bits54_clear (nv : BitVec 2) : nv ++ (1 : BitVec 1) ++ BitVec.ofBool false = nv ++ (0b10 : BitVec 2) := by
  revert nv
  decide

theorem Cpu.pByte_false (c : Cpu) : c.pByte false =
    BitVec.ofBool c.n ++ BitVec.ofBool c.v ++ (0b10 : BitVec 2) ++ BitVec.ofBool c.d ++ BitVec.ofBool c.i ++
      BitVec.ofBool c.z ++ BitVec.ofBool c.c := by
  unfold Cpu.pByte
  rw [append_bits54_clear]

/-- `s` as the NMI entry makes its first access: the request is cleared (R329). -/
def nmiTaken (s : State) : State := { s with bus := { s.bus with nmiPending := false } }

theorem nmiEntry_eq (s : State) : nmiEntry s = interruptEntry 0xFFFA (nmiTaken s) := rfl

theorem nmiTaken_readOnly (s : State) : ReadOnly s (nmiTaken s) :=
  ⟨{ Untouched.refl s with }, fun h => ⟨rfl, h⟩⟩

/-- With NMIs disabled in PPUCTRL no edge comes in the entry. -/
theorem nmiEntry_nmiPending_of_disabled {s : State} (h : s.ppu.ctrl.getLsbD 7 = false) :
    (nmiEntry s).bus.nmiPending = false := by
  have hstack : ∀ p, WriteStable (fun s => s.bus.nmiPending = false ∧ s.ppu.ctrl.getLsbD 7 = false) (stackAddr p) := by
    intro p v s ⟨hpend, hctrl⟩
    have hram : ¬(0x2000 ≤ (stackAddr p).toNat ∧ (stackAddr p).toNat < 0x4000) := by
      have hp := p.isLt
      rw [stackAddr_toNat]
      omega
    obtain ⟨hkept, -⟩ := (busWrite_cellFrame (stackAddr p) v s).ppu hram
    exact ⟨hpend, by rw [hkept, hctrl]⟩
  exact (nmiDisabled_stable.interruptEntry hstack 0xFFFA (s := nmiTaken s) ⟨rfl, h⟩).1

/-- Inside vblank, with the request's edge seen, the request stays high and so has no edge in the entry's seven cycles. -/
theorem nmiEntry_nmiPending_of_held {s : State} (hquiet : Quiet s) (hpc : placeable s s.cpu.pc = true)
    (hprev : s.bus.nmiPrev = true) (hflag : s.ppu.vblankFlag = true) (hctrl : s.ppu.ctrl.getLsbD 7 = true)
    (hline : s.ppu.scanline + 1 < s.image.region.preLine) (hdot : s.ppu.dot ≤ 340) :
    (nmiEntry s).bus.nmiPending = false := by
  have hheld : Held (4 * (0 + 7)) (nmiTaken s) :=
    ⟨rfl, hprev, hflag, hctrl, show 341 * s.ppu.scanline + s.ppu.dot + 28 < 341 * s.image.region.preLine by omega⟩
  have hquiet' : Quiet (nmiTaken s) := ⟨hquiet.stall, hquiet.oamDma, hquiet.dmc⟩
  exact (held_chain.interruptEntry hquiet' hpc (by decide) (by decide) hheld).pend

/-! What an exception saves, and the return to it (R333). -/

/-- From `s` an exception has led to `t` with the return address `pc` and the flags, with marker `b`, on the stack. -/
structure Saved (pc : Addr) (b : Bool) (s t : State) : Prop where
  pointer : t.cpu.s = s.cpu.s - 3
  high : t.memoryByte (word 0x01 s.cpu.s) = hi8 pc
  low : t.memoryByte (word 0x01 (s.cpu.s - 1)) = lo8 pc
  flags : t.memoryByte (word 0x01 (s.cpu.s - 2)) = s.cpu.pByte b

theorem interruptEntry_saved (vec : Addr) {s u : State} (h : ReadOnly s u) (hcpu : u.cpu = s.cpu)
    (hlo : 0x8000 ≤ vec.toNat) (hhi : 0x8000 ≤ (vec + 1).toNat) : Saved s.cpu.pc false s (interruptEntry vec u) := by
  obtain ⟨-, hentered, high, low, flags⟩ := interruptEntry_effect vec h hcpu hlo hhi
  exact ⟨congrArg Cpu.s hentered, high, low, flags⟩

theorem brk_saved {s t : State} (h : exec .brk s = .next t) : Saved (s.cpu.pc + 1) true s t := by
  obtain ⟨t', hexec, -, hcpu, high, low, flags⟩ := softwareInterrupt s
  obtain rfl : t' = t := Host.Outcome.next.inj (hexec.symm.trans h)
  exact ⟨congrArg Cpu.s hcpu, high, low, flags.trans (Cpu.pByte_true s.cpu).symm⟩

/-- The three bytes and S stand in `u` as they do in `t`. -/
theorem Saved.of_stack {pc : Addr} {b : Bool} {s t u : State} (h : Saved pc b s t) (hs : u.cpu.s = t.cpu.s)
    (hstack : ∀ k : Byte, k.toNat < 3 →
      u.memoryByte (word 0x01 (s.cpu.s - k)) = t.memoryByte (word 0x01 (s.cpu.s - k))) : Saved pc b s u where
  pointer := hs.trans h.pointer
  high := by
    have hzero := hstack 0#8 (by decide)
    rw [BitVec.sub_zero] at hzero
    exact hzero.trans h.high
  low := (hstack 1 (by decide)).trans h.low
  flags := (hstack 2 (by decide)).trans h.flags

/-- RTI pulls what was saved: S, PC and the flags are those of `s`. -/
theorem Saved.rti {pc : Addr} {b : Bool} {s u : State} (h : Saved pc b s u) :
    ∃ v, exec .rti u = .next v ∧ v.cpu = { s.cpu with a := u.cpu.a, x := u.cpu.x, y := u.cpu.y, pc := pc } := by
  have hflagsAddr : u.cpu.s + 1 = s.cpu.s - 2 := by rw [h.pointer]; bv_omega
  have hlowAddr : u.cpu.s + 2 = s.cpu.s - 1 := by rw [h.pointer]; bv_omega
  have hhighAddr : u.cpu.s + 3 = s.cpu.s := by rw [h.pointer]; bv_omega
  have hword : u.memoryWord (word 0x01 (s.cpu.s - 1)) (word 0x01 s.cpu.s) = pc := by
    rw [State.memoryWord, h.high, h.low, word_hi8_lo8]
  refine ⟨returnFromException (beforePull u), exec_eq_view .rti u, ?_⟩
  rw [returnFromException_cpu (beforePull_untouched u) (beforePull_cpu u), hflagsAddr, hlowAddr, hhighAddr, h.flags, hword,
    setP_pByte]

end Sys2Proof.Machine

namespace Sys2Proof
open Machine

/-- Settles O7: `exec` is total, and so is `decode` on the bytes that a fetch returns; only a stall loop without end takes the
next state away. -/
theorem noInstructionStops : Obligations.NoInstructionStops := by
  unfold Obligations.NoInstructionStops
  refine ⟨exec_exists, fun s hpower hhung => ?powered, fun s hoff => if_pos hoff⟩
  case powered =>
    obtain ⟨t, hboundary⟩ := boundary_exists s
    rw [step_eq_boundary hpower hhung, hboundary]
    cases ht : t.hung with
    | false => exact .inl ⟨t, checkHung_next ht⟩
    | true => exact .inr (if_pos ht)

/-- Settles O34: both entries are the one sequence, and what can set or lower a request in its cycles does not. -/
theorem interruptEntry : Obligations.InterruptEntry := by
  unfold Obligations.InterruptEntry
  intro s
  dsimp only
  rw [← Cpu.pByte_false]
  refine ⟨?nmi, ?irq, rfl, nmiEntry_nmiPending_of_disabled, nmiEntry_nmiPending_of_held, ?pending, ?line⟩
  case nmi => exact interruptEntry_effect 0xFFFA (nmiTaken_readOnly s) rfl (by decide) (by decide)
  case irq => exact interruptEntry_effect 0xFFFE (ReadOnly.refl s) rfl (by decide) (by decide)
  case pending => exact nmiPending_stable.interruptEntry (fun _ _ _ h => h) 0xFFFE
  case line =>
    intro hquiet hpc
    exact irq_chain.interruptEntry (k := 0) hquiet hpc (by decide) (by decide)

/-- Settles O38: each way in saves the return address and the flags, and RTI pulls what was saved. -/
theorem interruptThenReturn : Obligations.InterruptThenReturn := by
  unfold Obligations.InterruptThenReturn
  intro s t u pc hentry hs hstack
  have hsaved : ∃ b, Saved pc b s t := by
    obtain ⟨rfl, rfl⟩ | ⟨rfl, rfl⟩ | ⟨hexec, rfl⟩ := hentry
    · exact ⟨false, interruptEntry_saved 0xFFFA (nmiTaken_readOnly s) rfl (by decide) (by decide)⟩
    · exact ⟨false, interruptEntry_saved 0xFFFE (ReadOnly.refl s) rfl (by decide) (by decide)⟩
    · exact ⟨true, brk_saved hexec⟩
  obtain ⟨b, hsaved⟩ := hsaved
  exact (hsaved.of_stack hs hstack).rti

/-- Settles O6: the poll's order is the order of its conditions. -/
theorem pollOrder : Obligations.PollOrder := by
  unfold Obligations.PollOrder
  intro s hpower hhung
  have hstep := step_eq_boundary hpower hhung
  refine ⟨fun hreset => ?reset, fun hreset hnmi => ?nmi, fun hreset hnmi hline hi => ?irq,
    fun hreset hnmi hnone => ?instruction⟩
  case reset => rw [hstep, boundary_of_reset hreset]
  case nmi => rw [hstep, boundary_of_nmi hreset hnmi]
  case irq =>
    have hirq : irqTaken s = true := by rw [irqTaken, hline, hi]; rfl
    rw [hstep, boundary_of_irq hreset hnmi hirq]
  case instruction => exact step_runs hpower hhung hreset hnmi ((irqTaken_eq_false_iff s).2 hnone)

end Sys2Proof
end

section
/-! The reset sequence, and what a soft reset clears (spec/70_reset_and_hazards.md R631, R632). -/

namespace Sys2Proof.Machine

@[simp] theorem resetStackCycle_cpu (s : State) : (resetStackCycle s).cpu = { s.cpu with s := s.cpu.s - 1 } := by
  simp [resetStackCycle]

/-- The state in which the reset sequence begins: its request cleared. -/
def resetTaken (s : State) : State := { s with bus := { s.bus with resetPending := false } }

/-- The reset sequence up to the read of its vector. -/
def beforeVector (s : State) : State :=
  let s := resetTaken s
  let s := dummyRead s.cpu.pc s
  let s := dummyRead s.cpu.pc s
  (resetStackCycle (resetStackCycle (resetStackCycle s))).setI true

theorem resetSequence_eq (s : State) : resetSequence s =
    (readWord 0xFFFC 0xFFFD (beforeVector s)).2.setPc (readWord 0xFFFC 0xFFFD (beforeVector s)).1 := rfl

theorem beforeVector_cpu (s : State) : (beforeVector s).cpu = { s.cpu with s := s.cpu.s - 3, i := true } := by
  have hthree : s.cpu.s - 1 - 1 - 1 = s.cpu.s - 3 := by bv_omega
  simp only [beforeVector, resetTaken, State.setI_cpu, resetStackCycle_cpu, dummyRead_cpu, hthree]

theorem ReadStable.beforeVector {P : State → Prop} (h : ReadStable P) {s : State} (hs : P (resetTaken s)) :
    P (beforeVector s) :=
  h.setI _ (h.resetStackCycle (h.resetStackCycle (h.resetStackCycle (h.dummyRead _ (h.dummyRead _ hs)))))

theorem ReadStable.resetSequence {P : State → Prop} (h : ReadStable P) {s : State} (hs : P (resetTaken s)) :
    P (resetSequence s) :=
  h.setPc _ (h.readWord _ _ (h.beforeVector hs))

end Sys2Proof.Machine

namespace Sys2Proof
open Machine

/-- Settles O36: the sequence is made of reads and of changes of S, I and PC, and its vector lies in PRG-ROM. -/
theorem resetSequence : Obligations.ResetSequence := by
  unfold Obligations.ResetSequence
  intro s
  have hstable := untouched_stable (resetTaken s)
  have huntouched := hstable.resetSequence (Untouched.refl _)
  have hbefore := hstable.beforeVector (Untouched.refl _)
  have hvector : (readWord 0xFFFC 0xFFFD (beforeVector s)).1 = s.memoryWord 0xFFFC 0xFFFD := by
    rw [readWord_value (placeable_of_rom (by decide)) (placeable_of_rom (by decide)), State.memoryWord, hbefore.memoryByte,
      hbefore.memoryByte]
    rfl
  refine ⟨huntouched.resetPending, huntouched, ?cpu, fun hquiet => (resetSequence_spent hquiet).cyc⟩
  case cpu => rw [resetSequence_eq, State.setPc_cpu, readWord_cpu, beforeVector_cpu, hvector]

/-- Settles O50: outside OFF the call writes each unit's soft-reset values, which are the table's. -/
theorem softReset : Obligations.SoftReset := by
  unfold Obligations.SoftReset
  refine ⟨fun s hoff => if_pos hoff, fun s hon => ?_⟩
  rw [State.softReset, if_neg hon]
  rfl

end Sys2Proof
end

section
/-! What every step keeps: the image and the machine's invariant (spec/61_bus_mapper.md R370; spec/62_ppu.md R439, R450;
spec/63_apu.md R554, R566; spec/64_orchestrator.md R597, R618). -/

namespace Sys2Proof.Machine

/-! What a step keeps, from the changes it is made of. -/

/-- `P` is kept by every change that a step is made of: a dot, a tick, an access, the end of a cycle, and the
bookkeeping of the CPU's registers, of its requests and of the ghosts. -/
structure StepStable (P : State → Prop) : Prop where
  dot : ∀ s, P s → P (runDot s)
  tick : ∀ s, P s → P (apuTick s)
  read : ∀ a s, P s → P (busRead a s).2
  write : ∀ a v s, P s → P (busWrite a v s)
  finish : ∀ s, P s → P (endCycle s)
  bookkeeping : ∀ s c l h j n d r m, P s → P { s with
    cpu := c, diag := l, hung := h, jamSeen := j
    bus := { s.bus with stall := n, oamdmaPending := d, resetPending := r, nmiPending := m } }

theorem StepStable.readStable {P : State → Prop} (h : StepStable P) : ReadStable P where
  dot := h.dot
  tick := h.tick
  access := h.read
  finish := h.finish
  stall s n := h.bookkeeping s _ _ _ _ n _ _ _
  dmaStart s := h.bookkeeping s _ _ _ _ _ false _ _
  hang s := h.bookkeeping s _ _ true _ _ _ _ _
  dma := .inr (h.write 0x2004)
  cpu s c := h.bookkeeping s c _ _ _ _ _ _ _
  log s d := h.bookkeeping s _ (s.diag ++ [d]) _ _ _ _ _ _
  jam s := h.bookkeeping s _ _ _ true _ _ _ _

theorem StepStable.step {P : State → Prop} (h : StepStable P) {s t : State} (he : step s = .next t) (hs : P s) : P t :=
  h.readStable.step h.write (fun s => h.bookkeeping s _ _ _ _ _ _ false _) (fun s => h.bookkeeping s _ _ _ _ _ _ _ false) he hs

/-! The image, the configuration and the power state. -/

/-- `t` has the image, the configuration and the power state of `s`, and no reset request. -/
def Installed (s t : State) : Prop :=
  t.image = s.image ∧ t.cfg = s.cfg ∧ t.power = s.power ∧ t.bus.resetPending = false

theorem installed_stable (s : State) : ReadStable (Installed s) where
  dot _ h := h
  tick t h := by rw [apuTick_eq]; exact h
  access _ _ h := h
  finish _ h := h
  stall _ _ h := h
  dmaStart _ h := h
  hang _ h := h
  dma := .inr fun _ _ h => h
  cpu _ _ h := h
  log _ _ h := h
  jam _ h := h

theorem installed_write (s : State) (a : Addr) : WriteStable (Installed s) a := fun _ _ h => h

theorem step_installed {s t : State} (h : step s = .next t) : Installed s t := by
  have hstable := installed_stable s
  have hself : s.bus.resetPending = false → Installed s s := fun hreset => ⟨rfl, rfl, rfl, hreset⟩
  obtain ⟨-, -, -, ⟨-, rfl⟩ | ⟨hreset, -, rfl⟩ | ⟨hreset, -, -, rfl⟩ | ⟨hreset, -, -, r, -, hexec⟩⟩ := step_cases h
  · exact hstable.resetSequence ⟨rfl, rfl, rfl, rfl⟩
  · exact hstable.interruptEntry (fun _ => installed_write s _) _ (hself hreset)
  · exact hstable.interruptEntry (fun _ => installed_write s _) _ (hself hreset)
  · exact hstable.exec (installed_write s) r.1 hexec (hstable.fetchInstr (hself hreset))

/-! The arrays outside the PPU. -/

theorem Mem.wf_ite_write {w : Nat} (c : Prop) [Decidable c] {m : Mem w} (a : Nat) (v : BitVec w) (h : m.wf = true) :
    (if c then m.write a v else m).wf = true := by
  split
  · exact Mem.wf_write m a v h
  · exact h

/-- Work RAM, PRG-RAM, CHR-RAM and nametable RAM are in their canonical form. -/
def RamsCanonical (s : State) : Prop :=
  s.ram.wf = true ∧ s.prgRam.wf = true ∧ s.chrRam.wf = true ∧ s.ciram.wf = true

theorem chrRamAfterWrite_wf (a : Addr) (v : Byte) {s : State} (h : s.chrRam.wf = true) : (chrRamAfterWrite a v s).wf = true := by
  unfold chrRamAfterWrite
  split
  · exact Mem.wf_ite_write _ _ _ h
  · exact h

theorem ciramAfterWrite_wf (a : Addr) (v : Byte) {s : State} (h : s.ciram.wf = true) : (ciramAfterWrite a v s).wf = true := by
  unfold ciramAfterWrite
  split
  · exact Mem.wf_ite_write _ _ _ h
  · exact h

theorem ramsCanonical_stable : StepStable RamsCanonical where
  dot _ h := h
  tick s h := by rw [apuTick_eq]; exact h
  read _ _ h := h
  write a v s h := by
    obtain ⟨hram, hprg, hchr, hci⟩ := h
    exact ⟨Mem.wf_ite_write _ _ _ hram, Mem.wf_ite_write _ _ _ hprg, chrRamAfterWrite_wf a v hchr, ciramAfterWrite_wf a v hci⟩
  finish _ h := h
  bookkeeping _ _ _ _ _ _ _ _ _ h := h

/-! The clocks (spec/64_orchestrator.md R597). -/

theorem clocksAgree_stable : StepStable ClocksAgree where
  dot _ h := h
  tick s h := by rw [apuTick_eq]; exact h
  read _ _ h := h
  write _ _ _ h := h
  finish s h := by
    show s.bus.mclk + s.image.region.cpuDiv = (s.bus.cyc + 1) * s.image.region.cpuDiv
    rw [show s.bus.mclk = s.bus.cyc * s.image.region.cpuDiv from h, Nat.add_mul, Nat.one_mul]
  bookkeeping _ _ _ _ _ _ _ _ _ h := h

/-! The PPU (spec/62_ppu.md R439, R447, R450, R452). -/

/-- The invariant's part that speaks of the PPU alone. -/
structure Ppu.Legal (rg : Region) (p : Ppu) : Prop where
  oam : p.oam.wf = true
  pal : p.pal.wf = true
  fbWork : p.fbWork.wf = true
  scanline : p.scanline ≤ rg.preLine
  dot : p.dot ≤ 340
  attributes : ∀ n, p.oam.read (4 * n + 2) &&& 0x1C = 0

theorem evalSprites_fbWork (line k : Nat) : ∀ n p, (evalSprites line k n p).fbWork = p.fbWork := by
  induction k with
  | zero => exact fun _ _ => rfl
  | succ k ih =>
    intro n p
    refine (ih _ _).trans ?_
    simp only [apply_ite Ppu.fbWork, ite_self]

theorem spriteFetch_fbWork (rd : BitVec 14 → Byte) (line d : Nat) (p : Ppu) : (spriteFetch rd line d p).fbWork = p.fbWork := by
  unfold spriteFetch
  dsimp only
  split <;> rfl

theorem spriteDot_fbWork (rd : BitVec 14 → Byte) (line d : Nat) (p : Ppu) : (spriteDot rd line d p).fbWork = p.fbWork := by
  unfold spriteDot
  simp only [apply_ite Ppu.fbWork, evalSprites_fbWork, spriteFetch_fbWork, ite_self]

theorem bgFetch_fbWork (rd : BitVec 14 → Byte) (d : Nat) (p : Ppu) : (bgFetch rd d p).fbWork = p.fbWork := by
  unfold bgFetch
  dsimp only
  split <;> rfl

theorem bgDot_fbWork (rd : BitVec 14 → Byte) (rg : Region) (line d : Nat) (p : Ppu) :
    (bgDot rd rg line d p).fbWork = p.fbWork := by
  unfold bgDot
  simp only [apply_ite Ppu.fbWork, bgFetch_fbWork, ite_self]

theorem flagDot_fbWork (rg : Region) (line d : Nat) (p : Ppu) : (flagDot rg line d p).fbWork = p.fbWork := by
  unfold flagDot
  simp only [apply_ite Ppu.fbWork, ite_self]

theorem pixelDot_fbWork_wf (line px : Nat) {p : Ppu} (h : p.fbWork.wf = true) : (pixelDot line px p).fbWork.wf = true :=
  Mem.wf_ite_write _ _ _ h

/-- Of the work of a dot only the pixel output writes the frame in the making. -/
theorem ppuDotWork_fbWork_wf {s : State} (h : s.ppu.fbWork.wf = true) : (ppuDotWork s).fbWork.wf = true := by
  unfold ppuDotWork
  simp only [flagDot_fbWork, apply_ite Ppu.fbWork, bgDot_fbWork, spriteDot_fbWork, ite_self]
  split
  · refine pixelDot_fbWork_wf _ _ ?_
    simpa only [apply_ite Ppu.fbWork, spriteDot_fbWork, ite_self] using h
  · exact h

theorem runDot_ppu_legal {s : State} (h : s.ppu.Legal s.image.region) : (runDot s).ppu.Legal s.image.region := by
  have hsame := ppuDotWork_sameRegs s
  have hwork : (ppuDotWork s).Legal s.image.region :=
    ⟨hsame.oam ▸ h.oam, hsame.pal ▸ h.pal, ppuDotWork_fbWork_wf h.fbWork, hsame.scanline ▸ h.scanline, hsame.dot ▸ h.dot,
      hsame.oam ▸ h.attributes⟩
  obtain ⟨-, -, -, -, -, hpal, hoam, -, -, -, hfb⟩ := advanceDot_regs s.image.region (ppuDotWork s)
  obtain ⟨hline, hdot⟩ := advanceDot_position s.image.region (ppuDotWork s) ⟨hwork.scanline, hwork.dot⟩
  rw [runDot_ppu]
  exact ⟨hoam ▸ hwork.oam, hpal ▸ hwork.pal, hfb ▸ hwork.fbWork, hline, hdot, hoam ▸ hwork.attributes⟩

theorem ppuAfterRead_legal {s : State} {rg : Region} (a : Addr) (h : s.ppu.Legal rg) : (ppuAfterRead a s).Legal rg := by
  obtain ⟨-, -, -, -, hpal, hoam, -, hfb, hline, hdot⟩ := ppuAfterRead_regs a s
  exact ⟨hoam ▸ h.oam, hpal ▸ h.pal, hfb ▸ h.fbWork, hline ▸ h.scanline, hdot ▸ h.dot, hoam ▸ h.attributes⟩

theorem oamStored_attribute {a : Byte} {n : Nat} (v : Byte) (h : a.toNat = 4 * n + 2) : oamStored a v &&& 0x1C = 0 := by
  have hmask : v &&& 0xE3 &&& 0x1C = 0 := by
    rw [BitVec.and_assoc]
    exact BitVec.and_zero
  rw [oamStored, if_pos (by omega), hmask]

/-- OAMDATA masks what it stores at an attribute byte (R439). -/
theorem ppuWriteOam_legal {p : Ppu} {rg : Region} (h : p.Legal rg) (v : Byte) : (ppuWriteOam rg v p).Legal rg := by
  unfold ppuWriteOam
  split
  · exact { h with }
  · refine { h with oam := Mem.wf_write _ _ _ h.oam, attributes := fun n => ?_ }
    show (p.oam.write p.oamaddr.toNat (oamStored p.oamaddr v)).read (4 * n + 2) &&& 0x1C = 0
    rw [Mem.read_write]
    split
    · exact oamStored_attribute v ‹_›
    · exact h.attributes n

theorem Ppu.bump_legal {p : Ppu} {rg : Region} (h : p.Legal rg) : (p.bump rg).Legal rg := by
  rw [Ppu.bump_eq]
  exact { h with }

/-- Of the registers only OAMDATA and PPUDATA write a memory of the PPU, and none its position (R434 to R442). -/
theorem ppuRegWrite_legal {p : Ppu} {rg : Region} (n : Nat) (v : Byte) (h : p.Legal rg) : (ppuRegWrite rg n v p).Legal rg := by
  have hlatch : ({ p with ioLatch := v } : Ppu).Legal rg := { h with }
  unfold ppuRegWrite
  split
  case h_4 => exact ppuWriteOam_legal hlatch v
  case h_5 =>
    unfold ppuWriteScroll
    dsimp only
    split <;> exact { h with }
  case h_6 =>
    unfold ppuWriteAddr
    dsimp only
    split <;> exact { h with }
  case h_7 =>
    refine Ppu.bump_legal ?_
    split
    · exact hlatch
    · exact { h with pal := Mem.wf_write _ _ _ h.pal }
  all_goals exact { h with }

theorem ppuAfterWrite_legal {s : State} (a : Addr) (v : Byte) (h : s.ppu.Legal s.image.region) :
    (ppuAfterWrite a v s).Legal s.image.region := by
  unfold ppuAfterWrite
  split
  · exact ppuRegWrite_legal _ v h
  · exact h

theorem ppuLegal_stable : StepStable (fun s => s.ppu.Legal s.image.region) where
  dot _ h := runDot_ppu_legal h
  tick s h := by rw [apuTick_eq]; exact h
  read a _ h := ppuAfterRead_legal a h
  write a v _ h := ppuAfterWrite_legal a v h
  finish _ h := h
  bookkeeping _ _ _ _ _ _ _ _ _ h := h

/-! The APU (spec/63_apu.md R511, R554, R566). -/

/-- The DMC reads from 0x8000 upward, and its bit counter is 1 to 8. -/
structure Dmc.Legal (d : Dmc) : Prop where
  curAddr : 0x8000 ≤ d.curAddr.toNat
  bitsPos : 1 ≤ d.bits
  bitsLe : d.bits ≤ 8

/-- The invariant's part that speaks of the APU. -/
structure Apu.Legal (a : Apu) : Prop where
  lfsr : a.noise.lfsr ≠ 0
  dmc : a.dmc.Legal

/-- The noise register moves down by one bit, and the feedback comes in as bit 14 (R554). -/
theorem lfsrStep_getLsbD (mode : Bool) (r : BitVec 15) (k : Nat) : (lfsrStep mode r).getLsbD k =
    (r.getLsbD (k + 1) || (decide (k = 14) && (r.getLsbD 0 ^^ (if mode then r.getLsbD 6 else r.getLsbD 1)))) := by
  unfold lfsrStep
  rw [BitVec.getLsbD_or, BitVec.getLsbD_ushiftRight, Nat.add_comm 1, BitVec.getLsbD_shiftLeft, BitVec.getLsbD_setWidth,
    BitVec.getLsbD_ofBool]
  congr 1
  generalize (r.getLsbD 0 ^^ (if mode then r.getLsbD 6 else r.getLsbD 1)) = fb
  cases fb with
  | false => simp
  | true =>
    rw [Bool.eq_iff_iff]
    simp only [Bool.and_true, Bool.and_eq_true, Bool.not_eq_true', decide_eq_true_eq, decide_eq_false_iff_not]
    omega

/-- The feedback keeps the noise register from becoming 0: were all bits that move down 0, bit 0 alone would be set, and the
feedback would be 1. -/
theorem lfsrStep_ne_zero (mode : Bool) {r : BitVec 15} (h : r ≠ 0) : lfsrStep mode r ≠ 0 := by
  intro hzero
  have hbit : ∀ k, (lfsrStep mode r).getLsbD k = false := fun k => by rw [hzero]; exact BitVec.getLsbD_zero
  simp only [lfsrStep_getLsbD, Bool.or_eq_false_iff] at hbit
  have hmoved : ∀ k, r.getLsbD (k + 1) = false := fun k => (hbit k).1
  have hback : r.getLsbD 0 = false := by
    have := (hbit 14).2
    rwa [hmoved 0, hmoved 5, ite_self, Bool.xor_false] at this
  refine h (BitVec.eq_of_getLsbD_eq fun k _ => ?_)
  cases k with
  | zero => exact hback
  | succ k => exact (hmoved k).trans BitVec.getLsbD_zero.symm

theorem Noise.tick_lfsr_ne_zero {rg : Region} {n : Noise} (h : n.lfsr ≠ 0) : (n.tick rg).lfsr ≠ 0 := by
  unfold Noise.tick
  split
  · exact lfsrStep_ne_zero n.mode h
  · exact h

theorem Dmc.output_legal {d : Dmc} (h : d.Legal) : d.output.Legal := by
  obtain ⟨hcur, hpos, hle⟩ := h
  have hreload : ∀ b, (b : Nat) = 8 → 1 ≤ b ∧ b ≤ 8 := by omega
  unfold Dmc.output
  dsimp only
  split
  · split <;> exact ⟨hcur, (hreload _ rfl).1, (hreload _ rfl).2⟩
  · exact ⟨hcur, Nat.one_le_iff_ne_zero.mpr ‹_›, (Nat.sub_le _ _).trans hle⟩

theorem Dmc.tick_legal {rg : Region} {d : Dmc} (h : d.Legal) : (d.tick rg).Legal := by
  unfold Dmc.tick
  split
  · exact { Dmc.output_legal h with }
  · exact { h with }

theorem Dmc.startAddr_eq (d : Dmc) : d.startAddr = BitVec.ofNat 16 (0xC000 + d.addrReg.toNat * 64) := by
  have hlt := d.addrReg.isLt
  have hstart : d.startAddr = 0xC000#16 + (d.addrReg.setWidth 16 <<< 6) := rfl
  rw [hstart]
  bv_omega

theorem Dmc.restart_legal {d : Dmc} (h : d.Legal) : d.restart.Legal := by
  refine { h with curAddr := ?_ }
  have hlt := d.addrReg.isLt
  show 0x8000 ≤ d.startAddr.toNat
  rw [Dmc.startAddr_eq, BitVec.toNat_ofNat]
  omega

/-- The sample address wraps from 0xFFFF to 0x8000 (R566). -/
theorem Dmc.nextAddr_ge {a : Addr} (h : 0x8000 ≤ a.toNat) : 0x8000 ≤ (if a = 0xFFFF then 0x8000 else a + 1 : Addr).toNat := by
  split
  · decide
  · bv_omega

theorem Dmc.take_legal {d : Dmc} (b : Byte) (h : d.Legal) : (d.take b).1.Legal := by
  have hnext := Dmc.nextAddr_ge h.curAddr
  unfold Dmc.take
  dsimp only
  split
  · split
    · exact Dmc.restart_legal { h with curAddr := hnext }
    · exact { h with curAddr := hnext }
  · exact { h with curAddr := hnext }

theorem Apu.raiseFrameIrq_noise (a : Apu) : a.raiseFrameIrq.noise = a.noise := by
  unfold Apu.raiseFrameIrq
  split <;> rfl

/-- The frame counter clocks the envelope and the length of the noise channel, not its register. -/
theorem Apu.tickFrame_lfsr (rg : Region) (a : Apu) : (a.tickFrame rg).noise.lfsr = a.noise.lfsr := by
  have hquarter : ∀ b : Apu, b.quarter.noise.lfsr = b.noise.lfsr := fun _ => rfl
  have hhalf : ∀ b : Apu, b.half.noise.lfsr = b.noise.lfsr := fun _ => rfl
  unfold Apu.tickFrame Apu.frameStep Apu.delayedReset
  simp only [apply_ite Apu.noise, apply_ite Noise.lfsr, Apu.raiseFrameIrq_noise, hquarter, hhalf, ite_self]

theorem Apu.sample_legal {rg : Region} {cfg : Params} {a : Apu} (h : a.Legal) : (a.sample rg cfg).Legal := by
  unfold Apu.sample
  dsimp only
  split <;> exact ⟨h.lfsr, h.dmc⟩

theorem Apu.tickTimers_legal {rg : Region} {a : Apu} (cyc : Nat) (h : a.Legal) : (a.tickTimers rg cyc).Legal := by
  have hlfsr := Noise.tick_lfsr_ne_zero (rg := rg) h.lfsr
  have hdmc := Dmc.tick_legal (rg := rg) h.dmc
  unfold Apu.tickTimers
  dsimp only
  split <;> exact ⟨hlfsr, hdmc⟩

theorem dmcFetch_legal {s : State} (h : s.apu.Legal) : (dmcFetch s).apu.Legal := by
  unfold dmcFetch
  split
  · exact ⟨h.lfsr, Dmc.take_legal _ h.dmc⟩
  · exact h

theorem apuTick_legal {s : State} (h : s.apu.Legal) : (apuTick s).apu.Legal := by
  have hframe : (s.apu.tickFrame s.image.region).Legal :=
    ⟨by rw [Apu.tickFrame_lfsr]; exact h.lfsr, by rw [Apu.tickFrame_dmc]; exact h.dmc⟩
  exact Apu.sample_legal (Apu.tickTimers_legal _ (dmcFetch_legal hframe))

theorem apuAfterRead_legal {s : State} (a : Addr) (h : s.apu.Legal) : (apuAfterRead a s).Legal := by
  unfold apuAfterRead
  split
  · exact ⟨h.lfsr, h.dmc⟩
  · exact h

theorem Noise.write_lfsr (n : Nat) (v : Byte) (c : Noise) : (c.write n v).lfsr = c.lfsr := by
  unfold Noise.write
  split <;> rfl

theorem Dmc.write_legal {d : Dmc} (n : Nat) (v : Byte) (h : d.Legal) : (d.write n v).Legal := by
  unfold Dmc.write
  split <;> exact { h with }

theorem Apu.writeEnable_legal {a : Apu} (v : Byte) (h : a.Legal) : (a.writeEnable v).Legal := by
  refine ⟨h.lfsr, ?_⟩
  unfold Apu.writeEnable
  dsimp only
  split
  · exact { h.dmc with }
  split
  · exact Dmc.restart_legal h.dmc
  · exact h.dmc

theorem Apu.write_legal {a : Apu} (n : Nat) (v : Byte) (cyc : Nat) (h : a.Legal) : (a.write n v cyc).Legal := by
  unfold Apu.write
  split
  · exact { h with }
  split
  · exact { h with }
  split
  · exact { h with }
  split
  · exact ⟨by rw [Noise.write_lfsr]; exact h.lfsr, h.dmc⟩
  split
  · exact ⟨h.lfsr, Dmc.write_legal _ v h.dmc⟩
  split
  · exact Apu.writeEnable_legal v h
  split
  · exact { h with }
  · exact h

theorem apuAfterWrite_legal {s : State} (a : Addr) (v : Byte) (h : s.apu.Legal) : (apuAfterWrite a v s).Legal := by
  unfold apuAfterWrite
  split
  · exact Apu.write_legal _ v _ h
  · exact h

theorem apuLegal_stable : StepStable (fun s => s.apu.Legal) where
  dot _ h := h
  tick _ h := apuTick_legal h
  read a _ h := apuAfterRead_legal a h
  write a v _ h := apuAfterWrite_legal a v h
  finish _ h := h
  bookkeeping _ _ _ _ _ _ _ _ _ h := h

/-! The invariant. -/

/-- The invariant, part by part as the changes of a step keep it. -/
theorem State.inv_iff (s : State) :
    s.Inv ↔ RamsCanonical s ∧ ClocksAgree s ∧ s.ppu.Legal s.image.region ∧ s.apu.Legal := by
  constructor
  · intro ⟨⟨ram, prgRam, chrRam, ciram, oam, pal, fbWork⟩, clocks, ⟨scanline, dot⟩, attributes, ⟨lfsr, curAddr, bitsPos, bitsLe⟩⟩
    exact ⟨⟨ram, prgRam, chrRam, ciram⟩, clocks, ⟨oam, pal, fbWork, scanline, dot, attributes⟩,
      ⟨lfsr, ⟨curAddr, bitsPos, bitsLe⟩⟩⟩
  · intro ⟨⟨ram, prgRam, chrRam, ciram⟩, clocks, ⟨oam, pal, fbWork, scanline, dot, attributes⟩,
      ⟨lfsr, ⟨curAddr, bitsPos, bitsLe⟩⟩⟩
    exact ⟨⟨ram, prgRam, chrRam, ciram, oam, pal, fbWork⟩, clocks, ⟨scanline, dot⟩, attributes, ⟨lfsr, curAddr, bitsPos, bitsLe⟩⟩

end Sys2Proof.Machine

namespace Sys2Proof
open Machine

/-- Settles O46: a step takes the reset request away first, and nothing it does writes the rest. -/
theorem imageConstant : Obligations.ImageConstant := by
  unfold Obligations.ImageConstant
  exact fun s t => step_installed

/-- Settles O47: each part of the invariant is kept by every change that a step is made of. -/
theorem stepKeepsInvariant : Obligations.StepKeepsInvariant := by
  unfold Obligations.StepKeepsInvariant
  intro s t hinv hstep
  obtain ⟨hrams, hclocks, hppu, hapu⟩ := (State.inv_iff s).mp hinv
  exact (State.inv_iff t).mpr ⟨ramsCanonical_stable.step hstep hrams, clocksAgree_stable.step hstep hclocks,
    ppuLegal_stable.step hstep hppu, apuLegal_stable.step hstep hapu⟩

/-- Settles O48: the arrays are empty, the counters 0, and the noise register and the DMC at their power-on values. -/
theorem resetInvariant : Obligations.ResetInvariant := by
  unfold Obligations.ResetInvariant
  exact ⟨reset_memories, rfl, ⟨by decide, by decide⟩, fun _ => BitVec.zero_and, ⟨by decide, by decide, by decide, by decide⟩⟩

end Sys2Proof
end

section
/-! The PPU's registers, vblank and the palette (spec/62_ppu.md R437 to R443, R446, R455, R457). -/

namespace Sys2Proof.Machine

/-! PPUSTATUS (R437). -/

/-- An access in the PPU's window is one of the register that its address selects modulo 8 (spec/20_memory.md R77). -/
theorem ppuRegister_of_mirror {a : Addr} {k : Nat} (hlo : 0x2000 ≤ a.toNat) (hhi : a.toNat < 0x4000) (hk : a.toNat % 8 = k)
    (s : State) : busValue a s = (ppuRegRead k s).1 ∧ ppuAfterRead a s = (ppuRegRead k s).2 ∧
      ∀ v, ppuAfterWrite a v s = ppuRegWrite s.image.region k v s.ppu := by
  subst hk
  have hwindow : (0x2000 ≤ a.toNat && a.toNat < 0x4000) = true := by simp [hlo, hhi]
  refine ⟨?_, if_pos hwindow, fun v => if_pos hwindow⟩
  unfold busValue
  rw [if_neg (Nat.not_lt.mpr hlo), if_pos hhi]

/-! The vblank flag (R455, R457). -/

theorem runDot_vblank (s : State) : ∃ p : Ppu, p.vblank = s.ppu.vblank ∧
    (runDot s).ppu = advanceDot s.image.region (flagDot s.image.region s.ppu.scanline s.ppu.dot p) := by
  obtain ⟨p, hwork, hflag⟩ := ppuDotWork_flagDot s
  exact ⟨p, hflag, by rw [runDot_ppu, hwork]⟩

/-- The dot at (241, 1) sets the flag unless it was suppressed, and ends the suppression (R457). -/
theorem flagDot_set (rg : Region) (p : Ppu) : (flagDot rg 241 1 p).vblank = (p.vblankFlag || !p.vblSuppress, false) := by
  cases rg <;> rfl

/-- Dot 1 of the pre-render line clears the three flags (R455). -/
theorem flagDot_clear (rg : Region) (p : Ppu) : (flagDot rg rg.preLine 1 p).vblankFlag = false ∧
    (flagDot rg rg.preLine 1 p).sprite0Hit = false ∧ (flagDot rg rg.preLine 1 p).spriteOverflow = false := by
  cases rg <;> exact ⟨rfl, rfl, rfl⟩

theorem flagDot_other {rg : Region} {line d : Nat} (hset : ¬(line = 241 ∧ d = 1)) (hclear : ¬(line = rg.preLine ∧ d = 1))
    (p : Ppu) : (flagDot rg line d p).vblankFlag = p.vblankFlag := by
  unfold flagDot
  simp only [Bool.and_eq_true, decide_eq_true_eq, hset, hclear, if_false]
  split <;> rfl

theorem advanceDot_spriteFlags (rg : Region) (p : Ppu) :
    (advanceDot rg p).sprite0Hit = p.sprite0Hit ∧ (advanceDot rg p).spriteOverflow = p.spriteOverflow := by
  unfold advanceDot
  simp only [apply_ite Ppu.sprite0Hit, apply_ite Ppu.spriteOverflow, ite_self, and_self]

/-! The scroll and address registers (R440, R441, R443). -/

theorem setField_getLsbD {n : Nat} (v : BitVec 15) (lo : Nat) (f : BitVec n) {k : Nat} (hk : k < 15) :
    (setField v lo f).getLsbD k = if lo ≤ k ∧ k < lo + n then f.getLsbD (k - lo) else v.getLsbD k := by
  unfold setField
  simp only [BitVec.getLsbD_or, BitVec.getLsbD_and, BitVec.getLsbD_not, BitVec.getLsbD_shiftLeft, BitVec.getLsbD_setWidth,
    BitVec.getLsbD_allOnes, hk]
  by_cases hlo : lo ≤ k
  · by_cases hhi : k < lo + n
    · have h1 : k - lo < n := by omega
      have h2 : k - lo < 15 := by omega
      simp [hlo, hhi, h1, h2, Nat.not_lt.mpr hlo]
    · have h1 : ¬ k - lo < n := by omega
      simp [hlo, hhi, h1, BitVec.getLsbD_of_ge f (k - lo) (by omega)]
  · simp [hlo, Nat.lt_of_not_le hlo]

/-- A field that has been replaced reads as its new value. -/
theorem setField_extract_same {n : Nat} (v : BitVec 15) {lo : Nat} (f : BitVec n) (h : lo + n ≤ 15) :
    (setField v lo f).extractLsb' lo n = f := by
  apply BitVec.eq_of_getLsbD_eq
  intro k hk
  rw [BitVec.getLsbD_extractLsb', setField_getLsbD v lo f (by omega), if_pos (by omega), Nat.add_sub_cancel_left, decide_eq_true hk,
    Bool.true_and]

/-- Replacing a field leaves the others as they were. -/
theorem setField_extract_other {n : Nat} (v : BitVec 15) {lo start len : Nat} (f : BitVec n)
    (h : start + len ≤ lo ∨ lo + n ≤ start) (hlen : start + len ≤ 15) :
    (setField v lo f).extractLsb' start len = v.extractLsb' start len := by
  apply BitVec.eq_of_getLsbD_eq
  intro k hk
  rw [BitVec.getLsbD_extractLsb', BitVec.getLsbD_extractLsb', setField_getLsbD v lo f (by omega), if_neg (by omega)]

/-- The two bytes that PPUADDR takes make a 14-bit address (R441). -/
theorem setField_address (t : BitVec 15) (high : BitVec 6) (low : Byte) :
    setField (setField (setField t 8 high) 14 (0 : BitVec 1)) 0 low = (0 : BitVec 1) ++ high ++ low := by
  apply BitVec.eq_of_getLsbD_eq
  intro k hk
  simp only [setField_getLsbD _ _ _ hk, BitVec.getLsbD_append]
  by_cases hlow : k < 8
  · simp [hlow]
  · by_cases hhigh : k < 14
    · simp [hlow, hhigh, show k - 8 < 6 by omega, show 8 ≤ k by omega, show ¬ 14 ≤ k by omega]
    · obtain rfl : k = 14 := by omega
      simp

theorem busWrite_ppuAddr_first {s : State} (h : s.ppu.w = false) (v : Byte) : (busWrite 0x2006 v s).ppu =
    { s.ppu with ioLatch := v, t := setField (setField s.ppu.t 8 (v.extractLsb' 0 6)) 14 (0 : BitVec 1), w := true } :=
  if_neg (by rw [h]; exact Bool.false_ne_true)

theorem busWrite_ppuAddr_second {s : State} (h : s.ppu.w = true) (v : Byte) : (busWrite 0x2006 v s).ppu =
    { s.ppu with ioLatch := v, t := setField s.ppu.t 0 v, v := setField s.ppu.t 0 v, w := false } :=
  if_pos h

theorem busWrite_ppuScroll_first {s : State} (h : s.ppu.w = false) (v : Byte) : (busWrite 0x2005 v s).ppu =
    { s.ppu with ioLatch := v, t := setField s.ppu.t 0 (v.extractLsb' 3 5), x := v.extractLsb' 0 3, w := true } :=
  if_neg (by rw [h]; exact Bool.false_ne_true)

theorem busWrite_ppuScroll_second {s : State} (h : s.ppu.w = true) (v : Byte) : (busWrite 0x2005 v s).ppu =
    { s.ppu with ioLatch := v, t := setField (setField s.ppu.t 12 (v.extractLsb' 0 3)) 5 (v.extractLsb' 3 5), w := false } :=
  if_pos h

/-! The palette (R442, R446). -/

/-- PPUDATA stores in palette RAM and advances `v`; nothing here is rendering (R442). -/
theorem busWrite_palette {s : State} (hrange : 0x3F00 ≤ s.ppu.v.toNat % 0x4000)
    (hoff : s.ppu.renderingNow s.image.region = false) (v : Byte) : (busWrite 0x2007 v s).ppu = { s.ppu with
      ioLatch := v
      pal := s.ppu.pal.write (palIndex (s.ppu.v.toNat % 0x4000)) (v.extractLsb' 0 6)
      v := s.ppu.v + (if s.ppu.ctrl.getLsbD 2 then 32 else 1) } := by
  have hstored : (busWrite 0x2007 v s).ppu = Ppu.bump s.image.region { s.ppu with
      ioLatch := v
      pal := s.ppu.pal.write (palIndex (s.ppu.v.toNat % 0x4000)) (v.extractLsb' 0 6) } :=
    congrArg (Ppu.bump s.image.region) (if_neg (Nat.not_lt.mpr hrange))
  rw [hstored]
  exact if_neg (by rw [Bool.not_eq_true]; exact hoff)

/-- PPUDATA stores nothing in the cartridge's memories when `v` is in the palette's range (R384, R442). -/
theorem busWrite_palette_cartridge {s : State} (hrange : 0x3F00 ≤ s.ppu.v.toNat % 0x4000) (v : Byte) :
    (busWrite 0x2007 v s).chrRam = s.chrRam ∧ (busWrite 0x2007 v s).ciram = s.ciram := by
  constructor
  · show chrRamAfter 7 v s = s.chrRam
    refine if_neg ?_
    simp only [Bool.and_eq_true, decide_eq_true_eq]
    omega
  · show ciramAfter 7 v s = s.ciram
    refine if_neg ?_
    simp only [Bool.and_eq_true, decide_eq_true_eq]
    omega

theorem ppuRead_palette {a : Nat} (h : 0x3F00 ≤ a) (s : State) (p : Ppu) :
    ppuRead s p a = (p.pal.read (palIndex a)).setWidth 8 :=
  if_neg (Nat.not_lt.mpr h)

/-- The low six bits of a byte, as a byte. -/
theorem byte_lowSix (v : Byte) : (v.extractLsb' 0 6).setWidth 8 = v &&& 0x3F := by
  revert v
  decide

end Sys2Proof.Machine

namespace Sys2Proof
open Machine

/-- Settles O51: through every mirror the access is that of register 2, and with the flag cleared no NMI is requested when its cycle
ends. -/
theorem statusRead : Obligations.StatusRead := by
  unfold Obligations.StatusRead
  intro a s hlo hhi hreg
  obtain ⟨hvalue, hread, hwrite⟩ := ppuRegister_of_mirror hlo hhi hreg s
  have hppu : (busRead a s).2.ppu = (ppuReadStatus s.ppu).2 := hread
  have hrequest : (busRead a s).2.ppu.nmiRequest = false := by rw [hppu]; rfl
  refine ⟨hvalue, ?ppu, ?pending, hrequest, rfl, hwrite⟩
  case ppu =>
    rw [hppu, ppuReadStatus, Bool.decide_and]
    rfl
  case pending =>
    show (s.bus.nmiPending || ((busRead a s).2.ppu.nmiRequest && _)) = s.bus.nmiPending
    rw [hrequest, Bool.false_and, Bool.or_false]

/-- Settles O52: a dot ends with its flag events, which find the vblank flag as the dot found it, and the counters do
not write it. -/
theorem vblankAndNmi : Obligations.VblankAndNmi := by
  unfold Obligations.VblankAndNmi
  intro s
  obtain ⟨p, hflag, hdot⟩ := runDot_vblank s
  have hvblank : (runDot s).ppu.vblank = (flagDot s.image.region s.ppu.scanline s.ppu.dot p).vblank := by
    rw [hdot, advanceDot_vblank]
  refine ⟨rfl, rfl, fun hline hd => ?set, fun hline hd => ?clear, fun hset hclear => ?other⟩
  case set =>
    obtain ⟨hp, hsup⟩ := Prod.mk.inj hflag
    rw [hline, hd, flagDot_set, hp, hsup] at hvblank
    exact Prod.mk.inj hvblank
  case clear =>
    obtain ⟨hclear, hhit, hoverflow⟩ := flagDot_clear s.image.region p
    obtain ⟨hhit', hoverflow'⟩ := advanceDot_spriteFlags s.image.region (flagDot s.image.region s.image.region.preLine 1 p)
    rw [hline, hd] at hvblank hdot
    exact ⟨(congrArg Prod.fst hvblank).trans hclear, hdot ▸ hhit'.trans hhit, hdot ▸ hoverflow'.trans hoverflow⟩
  case other =>
    exact (congrArg Prod.fst hvblank).trans ((flagDot_other hset hclear p).trans (congrArg Prod.fst hflag))

/-- Settles O53: the two writes replace fields of `t`; a replaced field reads as its new value and leaves the others alone. -/
theorem scrollAndAddressWrites : Obligations.ScrollAndAddressWrites := by
  unfold Obligations.ScrollAndAddressWrites
  intro s first second hw
  dsimp only
  rw [busWrite_ppuAddr_second (by rw [busWrite_ppuAddr_first hw]), busWrite_ppuAddr_first hw,
    busWrite_ppuScroll_second (by rw [busWrite_ppuScroll_first hw]), busWrite_ppuScroll_first hw]
  dsimp only
  rw [setField_address]
  refine ⟨?address, rfl, rfl, ?coarseX, rfl, ?coarseY, ?fineY, ?nametable, rfl, rfl⟩
  case address =>
    rw [BitVec.toNat_append, ← Nat.shiftLeft_add_eq_or_of_lt second.isLt, Nat.shiftLeft_eq, BitVec.toNat_append,
      BitVec.extractLsb'_toNat]
    simp
  case coarseX =>
    rw [coarseX, setField_extract_other _ _ (by decide) (by decide), setField_extract_other _ _ (by decide) (by decide),
      setField_extract_same _ _ (by decide)]
  case coarseY => exact setField_extract_same _ _ (by decide)
  case fineY =>
    rw [fineY, setField_extract_other _ _ (by decide) (by decide), setField_extract_same _ _ (by decide)]
  case nametable =>
    rw [setField_extract_other _ _ (by decide) (by decide), setField_extract_other _ _ (by decide) (by decide),
      setField_extract_other _ _ (by decide) (by decide)]

/-- Settles O54: the byte is stored at one entry of palette RAM, and reads of the palette are reads after that write. -/
theorem paletteWrite : Obligations.PaletteWrite := by
  unfold Obligations.PaletteWrite
  intro s value hrange hoff
  have hppu := busWrite_palette hrange hoff value
  obtain ⟨hchr, hci⟩ := busWrite_palette_cartridge hrange value
  refine ⟨fun b hb => ?palette, congrArg Ppu.v hppu, hchr, hci, by decide, by decide, by decide, by decide⟩
  case palette =>
    rw [ppuRead_palette hb, ppuRead_palette hb, hppu]
    dsimp only
    rw [Mem.read_write, apply_ite (BitVec.setWidth 8), byte_lowSix]
    exact if_congr eq_comm rfl rfl

end Sys2Proof
end

section
/-! The APU's status register (spec/63_apu.md R529, R530). -/

namespace Sys2Proof.Machine

theorem bne_zero_eq_decide_pos {w : Nat} (x : BitVec w) : (x != 0) = decide (0 < x.toNat) := by
  rw [Bool.eq_iff_iff, bne_iff_ne, decide_eq_true_eq, Nat.pos_iff_ne_zero, ne_eq, ne_eq, ← BitVec.toNat_inj]
  rfl

theorem Dmc.sampleLength_eq (d : Dmc) : d.sampleLength = BitVec.ofNat 12 (d.lenReg.toNat * 16 + 1) := by
  have hlt := d.lenReg.isLt
  unfold Dmc.sampleLength
  bv_omega

theorem Dmc.restart_eq (d : Dmc) : d.restart = { d with
    curAddr := BitVec.ofNat 16 (0xC000 + d.addrReg.toNat * 64)
    remaining := BitVec.ofNat 12 (d.lenReg.toNat * 16 + 1) } := by
  rw [Dmc.restart, Dmc.startAddr_eq, Dmc.sampleLength_eq]

theorem busWrite_statusRegister (v : Byte) (s : State) : (busWrite 0x4015 v s).apu = s.apu.writeEnable v := by
  have hregister : (0x4015 : Addr).toNat - 0x4000 = 0x15 := by decide
  rw [busWrite_apu, apuAfterWrite, if_pos (by decide), hregister]
  rfl

end Sys2Proof.Machine

namespace Sys2Proof
open Machine

/-- Settles O55: the status bits are the model's, read as counts above 0, and a restarted sample has the rule's
address and length. -/
theorem apuStatus : Obligations.ApuStatus := by
  unfold Obligations.ApuStatus
  intro s v
  refine ⟨?value, rfl, ?write⟩
  case value =>
    have hvalue : (busRead 0x4015 s).1 = s.apu.status s.bus.db := rfl
    simp only [hvalue, Apu.status, bne_zero_eq_decide_pos]
  case write =>
    rw [busWrite_statusRegister, Apu.writeEnable, Dmc.restart_eq]
    simp only [Bool.not_eq_true']
    rfl

end Sys2Proof
end

section
/-! The cartridge: banks in range, and the mappers' registers (spec/61_bus_mapper.md R383 to R385, R394, R400, R418, R420). -/

namespace Sys2Proof.Machine

/-! Banks (spec/61_bus_mapper.md R375, R383 to R385, R390, R393, R405, R413, R414). -/

theorem bank_offset_lt {bank count size r : Nat} (hbank : bank < count) (hr : r < size) : bank * size + r < count * size := by
  calc bank * size + r < bank * size + size := Nat.add_lt_add_left hr _
    _ = (bank + 1) * size := by rw [Nat.add_mul, Nat.one_mul]
    _ ≤ count * size := Nat.mul_le_mul_right _ hbank

theorem Image.chrSize_pos_dvd (im : Image) : 0 < im.chrSize ∧ 0x2000 ∣ im.chrSize := by
  unfold Image.chrSize Image.chrIsRam
  split
  · exact ⟨by decide, Nat.dvd_refl _⟩
  · rename_i h
    exact ⟨Nat.mul_pos (Nat.pos_of_ne_zero (by simpa using h)) (by decide), Nat.dvd_mul_left _ _⟩

/-- CHR is a whole number of banks of every size up to 8 KiB, and has at least one. -/
theorem Image.chrBanks (im : Image) {size : Nat} (h : size ∣ 0x2000) :
    0 < im.chrSize / size ∧ im.chrSize / size * size = im.chrSize := by
  obtain ⟨hpos, hdvd⟩ := im.chrSize_pos_dvd
  have hsize := h.trans hdvd
  exact ⟨Nat.div_pos (Nat.le_of_dvd hpos hsize) (Nat.pos_of_dvd_of_pos hsize hpos), Nat.div_mul_cancel hsize⟩

/-- Each mapper's PRG offset is an offset in one of the image's banks, or is taken modulo its size (R390, R393, R405, R413). -/
theorem prgOffset_lt {im : Image} (m : Mapper) (him : 0 < im.prgCount) {a : Nat} (hlo : 0x8000 ≤ a) (hhi : a < 0x10000) :
    prgOffset im m a < im.prgSize := by
  have hsize : 0 < im.prgSize := Nat.mul_pos him (by decide)
  have hmod : ∀ b, b % im.prgCount < im.prgCount := fun b => Nat.mod_lt b him
  have hlast : im.prgCount - 1 < im.prgCount := Nat.sub_lt him Nat.one_pos
  cases m with
  | nrom => exact Nat.mod_lt _ hsize
  | unrom bank =>
    unfold prgOffset
    dsimp only
    split
    · exact bank_offset_lt (hmod _) (by omega)
    · exact bank_offset_lt hlast (by omega)
  | mmc1 r =>
    have hr : a % 0x4000 < 0x4000 := Nat.mod_lt _ (by decide)
    unfold prgOffset mmc1PrgOffset
    dsimp only
    split
    · split
      · exact bank_offset_lt him hr
      · exact bank_offset_lt (hmod _) hr
    · split
      · exact bank_offset_lt (hmod _) hr
      · exact bank_offset_lt hlast hr
    · exact Nat.mod_lt _ hsize
  | mmc3 r =>
    have hbanks : 0 < im.nb8 := Nat.mul_pos him (by decide)
    have hprg : im.prgSize = im.nb8 * 0x2000 := by unfold Image.prgSize Image.nb8; omega
    rw [hprg]
    exact bank_offset_lt (Nat.mod_lt _ hbanks) (Nat.mod_lt _ (by decide))

/-- The same for CHR, in banks of 4 or 1 KiB (R384, R405, R414). -/
theorem chrOffset_lt (im : Image) (m : Mapper) {p : Nat} (hp : p < 0x2000) : chrOffset im m p < im.chrSize := by
  have hpos := im.chrSize_pos_dvd.1
  obtain ⟨hpos4, hsize4⟩ := im.chrBanks (size := 4096) (by decide)
  obtain ⟨hpos1, hsize1⟩ := im.chrBanks (size := 1024) (by decide)
  cases m with
  | nrom => exact Nat.mod_lt _ hpos
  | unrom bank => exact Nat.mod_lt _ hpos
  | mmc1 r =>
    unfold chrOffset
    dsimp only
    split
    · split
      · exact (bank_offset_lt (Nat.mod_lt _ hpos4) ‹_›).trans_eq hsize4
      · exact (bank_offset_lt (Nat.mod_lt _ hpos4) (by omega)).trans_eq hsize4
    · exact Nat.mod_lt _ hpos
  | mmc3 r => exact (bank_offset_lt (Nat.mod_lt _ hpos1) (Nat.mod_lt _ (by decide))).trans_eq hsize1

/-- Without four screens there are two pages of nametable RAM (R385). -/
theorem ntPage_lt (im : Image) (m : Mapper) {t : Nat} (ht : t < 4) : ntPage im m t < if im.fourScreen then 4 else 2 := by
  unfold ntPage
  split
  · exact ht
  · split <;> omega

theorem ntOffset_lt (im : Image) (m : Mapper) (p : Nat) : ntOffset im m p < if im.fourScreen then 4096 else 2048 := by
  have hpage := ntPage_lt im m (t := (p - 0x2000) % 0x1000 / 0x400) (by omega)
  have hoffset := bank_offset_lt hpage (show (p - 0x2000) % 0x1000 % 0x400 < 0x400 from Nat.mod_lt _ (by decide))
  refine hoffset.trans_eq ?_
  split <;> rfl

/-! UNROM (R394). -/

theorem memoryByte_rom {a : Addr} (h : 0x8000 ≤ a.toNat) (s : State) :
    s.memoryByte a = prgByte s.image s.mapper a.toNat := by
  unfold State.memoryByte
  rw [if_neg (by omega), if_neg (by omega)]

/-! MMC1 (R400). -/

/-- The shift register after a serial write of `v` (R400). -/
def shiftIn (sr : BitVec 5) (v : Byte) : BitVec 5 := (sr >>> 1) ||| ((v.extractLsb' 0 1).setWidth 5 <<< 4)

/-- The register that five serial writes load, by bits 14:13 of the last address (R400, R401). -/
def Mmc1.load (a : Nat) (value : BitVec 5) (r : Mmc1) : Mmc1 :=
  match (a / 0x2000) % 4 with
  | 0 => { r with control := value }
  | 1 => { r with chr0 := value }
  | 2 => { r with chr1 := value }
  | _ => { r with prg := value }

/-- A serial write is taken up when bit 7 is clear and the last write was not in the cycle before. -/
theorem mmc1Write_serial {r : Mmc1} {a c : Nat} {v : Byte} (hcyc : ∀ l, r.lastWriteCyc = some l → l + 1 < c)
    (hv : v.getLsbD 7 = false) : mmc1Write a v c r =
      if r.srCount + 1 = 5 then { r with lastWriteCyc := some c, sr := 0, srCount := 0 }.load a (shiftIn r.sr v)
      else { r with lastWriteCyc := some c, sr := shiftIn r.sr v, srCount := r.srCount + 1 } := by
  have hspaced : r.lastWriteCyc.any (fun l => l + 1 == c) = false := by
    cases hlast : r.lastWriteCyc with
    | none => rfl
    | some l => simpa using (hcyc l hlast).ne
  unfold mmc1Write
  rw [hspaced, hv, if_neg Bool.false_ne_true, if_neg Bool.false_ne_true]
  rfl

theorem mmc1Write_shift (r : Mmc1) {a c last count : Nat} {v : Byte} (sr : BitVec 5) (hcyc : last + 1 < c)
    (hv : v.getLsbD 7 = false) (hcount : count + 1 ≠ 5) :
    mmc1Write a v c { r with lastWriteCyc := some last, sr := sr, srCount := count } =
      { r with lastWriteCyc := some c, sr := shiftIn sr v, srCount := count + 1 } := by
  have hspaced : ∀ l, some last = some l → l + 1 < c := by
    rintro l ⟨⟩
    exact hcyc
  rw [mmc1Write_serial hspaced hv, if_neg hcount]

theorem mmc1Write_fifth (r : Mmc1) {a c last : Nat} {v : Byte} (sr : BitVec 5) (hcyc : last + 1 < c)
    (hv : v.getLsbD 7 = false) : mmc1Write a v c { r with lastWriteCyc := some last, sr := sr, srCount := 4 } =
      { r with lastWriteCyc := some c, sr := 0, srCount := 0 }.load a (shiftIn sr v) := by
  have hspaced : ∀ l, some last = some l → l + 1 < c := by
    rintro l ⟨⟩
    exact hcyc
  rw [mmc1Write_serial hspaced hv, if_pos rfl]

/-- Five bits shifted in, the first lowest. -/
theorem shiftIn_five (v0 v1 v2 v3 v4 : Byte) : shiftIn (shiftIn (shiftIn (shiftIn (shiftIn 0 v0) v1) v2) v3) v4 =
    v4.extractLsb' 0 1 ++ v3.extractLsb' 0 1 ++ v2.extractLsb' 0 1 ++ v1.extractLsb' 0 1 ++ v0.extractLsb' 0 1 := by
  unfold shiftIn
  generalize v0.extractLsb' 0 1 = b0
  generalize v1.extractLsb' 0 1 = b1
  generalize v2.extractLsb' 0 1 = b2
  generalize v3.extractLsb' 0 1 = b3
  generalize v4.extractLsb' 0 1 = b4
  revert b0 b1 b2 b3 b4
  decide

/-! MMC3 (R418, R420). -/

/-- The counter after a clock: reloaded after a request or at 0, otherwise one less. -/
theorem mmc3Clock_counter (variant : Mmc3Variant) (r : Mmc3) : (mmc3Clock variant r).irqCounter =
    if r.irqCounter = 0 || r.irqReload then r.irqLatch else r.irqCounter - 1 := rfl

/-- The two variants differ only where the counter stands at 0 without a reload request. -/
theorem mmc3Clock_irq {r : Mmc3} (variant : Mmc3Variant) (h : 0 < r.irqCounter.toNat ∨ r.irqReload = true)
    (henabled : r.irqEnabled = true) :
    (mmc3Clock variant r).mapperIrq = (r.mapperIrq || (mmc3Clock variant r).irqCounter == 0) := by
  unfold mmc3Clock
  dsimp only
  rw [henabled, Bool.and_true]
  cases variant with
  | sharp => rfl
  | nec =>
    have hcount : (decide (0 < r.irqCounter.toNat) || r.irqReload) = true := by simpa using h
    simp only [hcount, Bool.and_true]

theorem mmc3Clock_keeps_irq {r : Mmc3} (variant : Mmc3Variant) (h : r.mapperIrq = true) :
    (mmc3Clock variant r).mapperIrq = true := by
  show (r.mapperIrq || _) = true
  rw [h, Bool.true_or]

/-- `k` clocks after a reload request with `n` in the latch and IRQs enabled: the counter counts down from `n`, and the flag is set
from the clock `n + 1` on. -/
structure Mmc3.Counting (n : Byte) (k : Nat) (r : Mmc3) : Prop where
  latch : r.irqLatch = n
  enabled : r.irqEnabled = true
  reload : r.irqReload = decide (k = 0)
  counter : 0 < k → k ≤ n.toNat + 1 → r.irqCounter.toNat = n.toNat + 1 - k
  irq : r.mapperIrq = decide (n.toNat + 1 ≤ k)

/-- Up to the clock `n + 1` each clock leaves the counter one lower: the first reloads it, and the others find it above 0. -/
theorem Mmc3.Counting.countsDown {n : Byte} {k : Nat} {r : Mmc3} (h : r.Counting n k) (hk : k ≤ n.toNat)
    (variant : Mmc3Variant) : (0 < r.irqCounter.toNat ∨ r.irqReload = true) ∧
      (mmc3Clock variant r).irqCounter.toNat = n.toNat - k := by
  rw [mmc3Clock_counter, h.reload]
  by_cases hstart : k = 0
  · rw [decide_eq_true hstart, Bool.or_true, if_pos rfl, h.latch, hstart]
    exact ⟨.inr rfl, rfl⟩
  · have hvalue := h.counter (Nat.pos_of_ne_zero hstart) (by omega)
    have hpos : 0 < r.irqCounter.toNat := by omega
    have hne : ¬(decide (r.irqCounter = 0) || decide (k = 0)) = true := by
      simp only [hstart, decide_false, Bool.or_false, decide_eq_true_eq]
      rintro hzero
      rw [hzero] at hpos
      exact absurd hpos (by decide)
    rw [if_neg hne]
    exact ⟨.inl hpos, by bv_omega⟩

theorem Mmc3.Counting.clock {n : Byte} {k : Nat} {r : Mmc3} (h : r.Counting n k) (variant : Mmc3Variant) :
    (mmc3Clock variant r).Counting n (k + 1) := by
  by_cases hdone : n.toNat + 1 ≤ k
  · have hset : (mmc3Clock variant r).mapperIrq = true := mmc3Clock_keeps_irq variant (by rw [h.irq, decide_eq_true hdone])
    exact ⟨h.latch, h.enabled, rfl, fun _ hle => absurd hle (by omega), by rw [hset, decide_eq_true (by omega)]⟩
  · obtain ⟨hcounting, hcounter⟩ := h.countsDown (by omega) variant
    refine ⟨h.latch, h.enabled, rfl, fun _ _ => by omega, ?_⟩
    have hzero : ((mmc3Clock variant r).irqCounter == 0) = decide (n.toNat - k = 0) := by
      rw [← hcounter, Bool.eq_iff_iff, beq_iff_eq, decide_eq_true_eq, ← BitVec.toNat_inj]
      rfl
    rw [mmc3Clock_irq variant hcounting h.enabled, h.irq, decide_eq_false hdone, Bool.false_or, hzero, decide_eq_decide]
    omega

theorem Mmc3.counting_repeat {r : Mmc3} (variant : Mmc3Variant) (hreload : r.irqReload = true) (henabled : r.irqEnabled = true)
    (hirq : r.mapperIrq = false) (k : Nat) : (Nat.repeat (mmc3Clock variant) k r).Counting r.irqLatch k := by
  induction k with
  | zero => exact ⟨rfl, henabled, hreload, fun h => absurd h (Nat.lt_irrefl 0), hirq⟩
  | succ k ih => exact ih.clock variant

end Sys2Proof.Machine

namespace Sys2Proof
open Machine

/-- Settles O56: every bank number is taken modulo the banks there are, or is the last or the first, and an offset
stays in its bank. -/
theorem banksInRange : Obligations.BanksInRange := by
  unfold Obligations.BanksInRange
  intro im m him
  exact ⟨fun _ hlo hhi => prgOffset_lt m him hlo hhi, fun _ => chrOffset_lt im m, fun p _ _ => ntOffset_lt im m p⟩

/-- Settles O57: the byte at an address of the ROM window is the mapper's PRG-ROM byte, which UNROM compares and ANDs with. -/
theorem unromBusConflict : Obligations.UnromBusConflict := by
  unfold Obligations.UnromBusConflict
  intro a v bank s hmapper ha
  rw [memoryByte_rom ha, hmapper, busWrite_mapper, busWrite_diag, mapperAfterWrite, diagAfterWrite, if_pos ha, if_pos ha, hmapper]
  exact ⟨rfl, rfl⟩

/-- Settles O58: four writes shift their bit in, and the fifth loads what the five have made. -/
theorem mmc1SerialLoad : Obligations.Mmc1SerialLoad := by
  unfold Obligations.Mmc1SerialLoad
  intro r v0 v1 v2 v3 v4 a0 a1 a2 a3 a4 c0 c1 c2 c3 c4 hsr hcount h0 h1 h2 h3 h4 hc0 hc1 hc2 hc3 hc4
  dsimp only
  rw [mmc1Write_serial hc0 h0, if_neg (by rw [hcount]; decide), hsr, hcount, mmc1Write_shift _ _ hc1 h1 (by decide),
    mmc1Write_shift _ _ hc2 h2 (by decide), mmc1Write_shift _ _ hc3 h3 (by decide), mmc1Write_fifth _ _ hc4 h4, shiftIn_five]
  exact ⟨fun h => by rw [Mmc1.load, h]; rfl, fun h => by rw [Mmc1.load, h]; rfl, fun h => by rw [Mmc1.load, h]; rfl,
    fun h => by rw [Mmc1.load, h]; rfl⟩

/-- Settles O59: the counter is reloaded once and counts down from there; the filter is the model's, case by case. -/
theorem mmc3Interrupt : Obligations.Mmc3Interrupt := by
  unfold Obligations.Mmc3Interrupt
  intro variant r
  refine ⟨fun hreload henabled hirq k => (Mmc3.counting_repeat variant hreload henabled hirq k).irq, fun abus => ?dot⟩
  case dot =>
    unfold mapperDot
    dsimp only
    cases abus.getLsbD 12 with
    | false => rfl
    | true =>
      by_cases hlow : r.a12Low < 10
      · simp [hlow, Nat.not_le.mpr hlow]
      · simp [hlow, Nat.le_of_not_lt hlow]

end Sys2Proof
end

section
/-! The controller port (spec/64_orchestrator.md R608). -/

namespace Sys2Proof.Machine

theorem busRead_port0_strobe (s : State) : (busRead 0x4016 s).2.input.strobe = s.input.strobe :=
  (inputAfterRead_ports 0x4016 s).1

theorem busRead_port0_bit0 {s : State} (h : s.input.strobe = false) :
    (busRead 0x4016 s).1.getLsbD 0 = s.input.sh0.getLsbD 0 := by
  have hvalue : (busRead 0x4016 s).1 = port0Value s := rfl
  have hbit : s.input.bit0 0 = s.input.sh0.getLsbD 0 := by
    rw [Input.bit0, h]
    rfl
  rw [hvalue, port0Value, BitVec.getLsbD_append, ← hbit]
  simp

/-- A read shifts the register down and a 1 in at the top. -/
theorem busRead_port0_sh0 {s : State} (h : s.input.strobe = false) {j : Nat} (hj : j < 8) :
    (busRead 0x4016 s).2.input.sh0.getLsbD j = if j = 7 then true else s.input.sh0.getLsbD (j + 1) := by
  have hshift : (busRead 0x4016 s).2.input.sh0 = (s.input.sh0 >>> 1) ||| 0x80#8 := by
    show s.input.shiftReg 0 = _
    rw [Input.shiftReg, h]
    rfl
  have htop : ∀ k, k < 8 → (0x80#8).getLsbD k = decide (k = 7) := by decide
  rw [hshift, BitVec.getLsbD_or, BitVec.getLsbD_ushiftRight, Nat.add_comm 1, htop j hj]
  split
  · rw [decide_eq_true ‹_›, Bool.or_true]
  · rw [decide_eq_false ‹_›, Bool.or_false]

/-- After `n` reads bit `j` of the register is bit `n + j` of what it was, and 1 above. -/
theorem port0_reads {s : State} (h : s.input.strobe = false) (n : Nat) :
    (Nat.repeat (fun u => (busRead 0x4016 u).2) n s).input.strobe = false ∧
    ∀ j, j < 8 → (Nat.repeat (fun u => (busRead 0x4016 u).2) n s).input.sh0.getLsbD j =
      if n + j < 8 then s.input.sh0.getLsbD (n + j) else true := by
  induction n with
  | zero => exact ⟨h, fun j hj => by rw [Nat.zero_add, if_pos hj]; rfl⟩
  | succ n ih =>
    obtain ⟨hstrobe, hsh⟩ := ih
    refine ⟨(busRead_port0_strobe _).trans hstrobe, fun j hj => (busRead_port0_sh0 hstrobe hj).trans ?_⟩
    split
    · rw [if_neg (by omega)]
    · rw [hsh (j + 1) (by omega), Nat.add_right_comm, Nat.add_assoc]

end Sys2Proof.Machine

namespace Sys2Proof
open Machine

/-- Settles O60: the bit returned is bit 0 of the register as the reads before have shifted it. -/
theorem controllerSerial : Obligations.ControllerSerial := by
  unfold Obligations.ControllerSerial
  intro s n hstrobe
  obtain ⟨hstrobe', hsh⟩ := port0_reads hstrobe n
  exact (busRead_port0_bit0 hstrobe').trans (hsh 0 (by decide))

end Sys2Proof
end
